-- ==== Sys2Proof/Word.lean ====
section
/-! DEFINITION. The word and byte types of RPAK-DEC (spec 00_scope R4, R5). -/

namespace Sys2Proof

/-- A 64-bit register (`POS_W` = 64, spec R4). -/
abbrev Word := BitVec 64

/-- One byte of `IN` or `OUT` (spec R35: every access is one byte). -/
abbrev Byte := BitVec 8

/-- `ALL1` = 2^64 - 1 as a natural number (spec R5): the mask of an unconstrained window. -/
def all1 : Nat := 2 ^ 64 - 1

end Sys2Proof
end

