-- ==== Sys2Proof/Config.lean ====
section
/-! DEFINITION. What an implementation fixes: the numbers of spec 00_scope R4, the shape of a ROM entry
(10_state R25), and the one source of free values. -/

namespace Sys2Proof

/-- A CodeTableEntry, 40 bits: `extraBits: u8`, `baseLength: u32` (spec R25). -/
structure RomEntry where
  extraBits : BitVec 8
  baseLength : BitVec 32
deriving DecidableEq, Repr, Inhabited

/-- `SENTINEL` (spec R4, R93): the short-table base length that triggers ExtendedRun. -/
def Config.sentinel : Nat := 17

/-- `EXT_BITS` (spec R4): bits read by ExtendedRun. -/
def Config.extBits : Nat := 4

/-- `TAKE_MAX` (spec R4): the largest field one `take` reads. -/
def Config.takeMax : Nat := 32

/-- `LONG_LIT_N` (spec R4): long-code indices below this are literal runs. -/
def Config.longLitN : Nat := 32

/-- `IN_WIN_MIN` (spec R4): the smallest legal input window code. -/
def Config.inWinMin : Nat := 4

/-- The window code that means "unconstrained" (spec R51). -/
def Config.winUnconstrained : Nat := 63

/-- The host keeps `totalLen` below this (spec R148, 92 D37). -/
def Config.totalLenBound : Nat := 2 ^ 63

/-- `REFILL_THRESHOLD` (spec R4, R87). -/
def Config.refillThreshold : Nat := 32

/-- The values that host reads return where the spec says "unspecified" (spec R24; log entry 8). It has
no body: nothing can be proved of a value it gives. -/
opaque Config.freeReg : Nat → Word

/-- What fixes the widths of the coded fields: the two ROMs (spec R25, R55) and `LEN_BYTES` (spec R57).
The selector and prefix widths are constants of the format. -/
structure Format where
  shortRom : Vector RomEntry 16
  longRom : Vector RomEntry 64
  lenBytes : BitVec 4
deriving DecidableEq, Repr

/-- The `SHORT_ROM` entry of a 4-bit prefix. -/
def Format.short (f : Format) (idx : BitVec 4) : RomEntry := f.shortRom.get idx.toFin

/-- The `LONG_ROM` entry of a 6-bit prefix. -/
def Format.long (f : Format) (idx : BitVec 6) : RomEntry := f.longRom.get idx.toFin

/-- The `SHORT_ROM` entry of this prefix triggers ExtendedRun (spec R90: the test is on the base length). -/
def Format.isSentinel (f : Format) (idx : BitVec 4) : Bool :=
  (f.short idx).baseLength.toNat == Config.sentinel

/-- ROM well-formedness (spec R55): short `extraBits` at most 4, long at most 32, every base length at
least 1 (below 2^32 by its width). -/
def Format.romWf (f : Format) : Bool :=
  f.shortRom.toList.all (fun e => decide (e.extraBits.toNat ≤ 4) && decide (1 ≤ e.baseLength.toNat)) &&
  f.longRom.toList.all (fun e => decide (e.extraBits.toNat ≤ 32) && decide (1 ≤ e.baseLength.toNat))

end Sys2Proof
end

