-- ==== Sys2Proof/Syntax.lean ====
section
/-! DEFINITION. The instructions: one constructor per row of spec/opcode_table.json (spec 30_encoding R63), in
the table's order. A symbol's operands are the fields that follow its prefix (R52); LITRUN's pad and
literal bytes are stream data that its meaning reads (R96), not operands (log entry 12). The lengths
named in the docstrings are those of the default ROMs (R53, R54); the meaning reads the ROM. -/

namespace Sys2Proof

/-- `LENB` and `TRAIL` of a header whose input window is constrained (spec R51). -/
structure Trail where
  /-- `LENB`: `LEN_BYTES - 1`. -/
  lenb : BitVec 3
  /-- T, the trailing length, `LEN_BYTES` bytes little-endian. -/
  value : Word
deriving DecidableEq, Repr

/-- The instructions of RPAK-DEC. -/
inductive Instr where
  /-- SMATCH.0 (R91): PFX4 = 0; length 2 by default. -/
  | smatch0 (xtra : BitVec 4) (dn : BitVec 5) (dfrac : BitVec 31)
  /-- SMATCH.1 (R91): PFX4 = 1; length 3 by default. -/
  | smatch1 (xtra : BitVec 4) (dn : BitVec 5) (dfrac : BitVec 31)
  /-- SMATCH.2 (R91): PFX4 = 2; length 4 by default. -/
  | smatch2 (xtra : BitVec 4) (dn : BitVec 5) (dfrac : BitVec 31)
  /-- SMATCH.3 (R91): PFX4 = 3; length 5 by default. -/
  | smatch3 (xtra : BitVec 4) (dn : BitVec 5) (dfrac : BitVec 31)
  /-- SMATCH.4 (R91): PFX4 = 4; length 6 by default. -/
  | smatch4 (xtra : BitVec 4) (dn : BitVec 5) (dfrac : BitVec 31)
  /-- SMATCH.5 (R91): PFX4 = 5; length 7 by default. -/
  | smatch5 (xtra : BitVec 4) (dn : BitVec 5) (dfrac : BitVec 31)
  /-- SMATCH.6 (R91): PFX4 = 6; length 8 by default. -/
  | smatch6 (xtra : BitVec 4) (dn : BitVec 5) (dfrac : BitVec 31)
  /-- SMATCH.7 (R91): PFX4 = 7; length 9 by default. -/
  | smatch7 (xtra : BitVec 4) (dn : BitVec 5) (dfrac : BitVec 31)
  /-- SMATCH.8 (R91): PFX4 = 8; lengths 10 to 11 by default. -/
  | smatch8 (xtra : BitVec 4) (dn : BitVec 5) (dfrac : BitVec 31)
  /-- SMATCH.9 (R91): PFX4 = 9; lengths 12 to 13 by default. -/
  | smatch9 (xtra : BitVec 4) (dn : BitVec 5) (dfrac : BitVec 31)
  /-- SMATCH.10 (R91): PFX4 = 10; lengths 14 to 15 by default. -/
  | smatch10 (xtra : BitVec 4) (dn : BitVec 5) (dfrac : BitVec 31)
  /-- SMATCH.11 (R91): PFX4 = 11; length 16 by default. -/
  | smatch11 (xtra : BitVec 4) (dn : BitVec 5) (dfrac : BitVec 31)
  /-- SMATCH.12 (R91): PFX4 = 12; lengths 33 to 36 by default. -/
  | smatch12 (xtra : BitVec 4) (dn : BitVec 5) (dfrac : BitVec 31)
  /-- SMATCH.13 (R91): PFX4 = 13; lengths 37 to 44 by default. -/
  | smatch13 (xtra : BitVec 4) (dn : BitVec 5) (dfrac : BitVec 31)
  /-- SMATCH.14 (R91): PFX4 = 14; lengths 45 to 60 by default. -/
  | smatch14 (xtra : BitVec 4) (dn : BitVec 5) (dfrac : BitVec 31)
  /-- The code word of row SMATCHX (PFX4 = 15) where a ROM other than the default has no sentinel in entry 15: a
  plain SMATCH by R90, R91 (log entry 11). -/
  | smatch15 (xtra : BitVec 4) (dn : BitVec 5) (dfrac : BitVec 31)
  /-- SMATCHX (R92): PFX4 of an entry with `baseLength` 17 (15 by default); length 17 + EXT4. -/
  | smatchx (pfx : BitVec 4) (ext4 : BitVec 4) (dn : BitVec 5) (dfrac : BitVec 31)
  /-- LITRUN.0 (R95): PFX6 = 0; length 1 by default. -/
  | litrun0 (xtra : BitVec 32)
  /-- LITRUN.1 (R95): PFX6 = 1; length 2 by default. -/
  | litrun1 (xtra : BitVec 32)
  /-- LITRUN.2 (R95): PFX6 = 2; length 3 by default. -/
  | litrun2 (xtra : BitVec 32)
  /-- LITRUN.3 (R95): PFX6 = 3; length 4 by default. -/
  | litrun3 (xtra : BitVec 32)
  /-- LITRUN.4 (R95): PFX6 = 4; length 5 by default. -/
  | litrun4 (xtra : BitVec 32)
  /-- LITRUN.5 (R95): PFX6 = 5; length 6 by default. -/
  | litrun5 (xtra : BitVec 32)
  /-- LITRUN.6 (R95): PFX6 = 6; length 7 by default. -/
  | litrun6 (xtra : BitVec 32)
  /-- LITRUN.7 (R95): PFX6 = 7; length 8 by default. -/
  | litrun7 (xtra : BitVec 32)
  /-- LITRUN.8 (R95): PFX6 = 8; length 9 by default. -/
  | litrun8 (xtra : BitVec 32)
  /-- LITRUN.9 (R95): PFX6 = 9; length 10 by default. -/
  | litrun9 (xtra : BitVec 32)
  /-- LITRUN.10 (R95): PFX6 = 10; length 11 by default. -/
  | litrun10 (xtra : BitVec 32)
  /-- LITRUN.11 (R95): PFX6 = 11; length 12 by default. -/
  | litrun11 (xtra : BitVec 32)
  /-- LITRUN.12 (R95): PFX6 = 12; length 13 by default. -/
  | litrun12 (xtra : BitVec 32)
  /-- LITRUN.13 (R95): PFX6 = 13; length 14 by default. -/
  | litrun13 (xtra : BitVec 32)
  /-- LITRUN.14 (R95): PFX6 = 14; length 15 by default. -/
  | litrun14 (xtra : BitVec 32)
  /-- LITRUN.15 (R95): PFX6 = 15; length 16 by default. -/
  | litrun15 (xtra : BitVec 32)
  /-- LITRUN.16 (R95): PFX6 = 16; lengths 17 to 20 by default. -/
  | litrun16 (xtra : BitVec 32)
  /-- LITRUN.17 (R95): PFX6 = 17; lengths 21 to 24 by default. -/
  | litrun17 (xtra : BitVec 32)
  /-- LITRUN.18 (R95): PFX6 = 18; lengths 25 to 28 by default. -/
  | litrun18 (xtra : BitVec 32)
  /-- LITRUN.19 (R95): PFX6 = 19; lengths 29 to 32 by default. -/
  | litrun19 (xtra : BitVec 32)
  /-- LITRUN.20 (R95): PFX6 = 20; lengths 33 to 36 by default. -/
  | litrun20 (xtra : BitVec 32)
  /-- LITRUN.21 (R95): PFX6 = 21; lengths 37 to 40 by default. -/
  | litrun21 (xtra : BitVec 32)
  /-- LITRUN.22 (R95): PFX6 = 22; lengths 41 to 44 by default. -/
  | litrun22 (xtra : BitVec 32)
  /-- LITRUN.23 (R95): PFX6 = 23; lengths 45 to 48 by default. -/
  | litrun23 (xtra : BitVec 32)
  /-- LITRUN.24 (R95): PFX6 = 24; lengths 49 to 64 by default. -/
  | litrun24 (xtra : BitVec 32)
  /-- LITRUN.25 (R95): PFX6 = 25; lengths 65 to 80 by default. -/
  | litrun25 (xtra : BitVec 32)
  /-- LITRUN.26 (R95): PFX6 = 26; lengths 81 to 96 by default. -/
  | litrun26 (xtra : BitVec 32)
  /-- LITRUN.27 (R95): PFX6 = 27; lengths 97 to 112 by default. -/
  | litrun27 (xtra : BitVec 32)
  /-- LITRUN.28 (R95): PFX6 = 28; lengths 113 to 176 by default. -/
  | litrun28 (xtra : BitVec 32)
  /-- LITRUN.29 (R95): PFX6 = 29; lengths 177 to 432 by default. -/
  | litrun29 (xtra : BitVec 32)
  /-- LITRUN.30 (R95): PFX6 = 30; lengths 433 to 4528 by default. -/
  | litrun30 (xtra : BitVec 32)
  /-- LITRUN.31 (R95): PFX6 = 31; lengths 4529 to 70064 by default. -/
  | litrun31 (xtra : BitVec 32)
  /-- LMATCH.32 (R99): PFX6 = 32; lengths 61 to 68 by default. -/
  | lmatch32 (xtra : BitVec 32) (dn : BitVec 5) (dfrac : BitVec 31)
  /-- LMATCH.33 (R99): PFX6 = 33; lengths 69 to 76 by default. -/
  | lmatch33 (xtra : BitVec 32) (dn : BitVec 5) (dfrac : BitVec 31)
  /-- LMATCH.34 (R99): PFX6 = 34; lengths 77 to 84 by default. -/
  | lmatch34 (xtra : BitVec 32) (dn : BitVec 5) (dfrac : BitVec 31)
  /-- LMATCH.35 (R99): PFX6 = 35; lengths 85 to 92 by default. -/
  | lmatch35 (xtra : BitVec 32) (dn : BitVec 5) (dfrac : BitVec 31)
  /-- LMATCH.36 (R99): PFX6 = 36; lengths 93 to 100 by default. -/
  | lmatch36 (xtra : BitVec 32) (dn : BitVec 5) (dfrac : BitVec 31)
  /-- LMATCH.37 (R99): PFX6 = 37; lengths 101 to 108 by default. -/
  | lmatch37 (xtra : BitVec 32) (dn : BitVec 5) (dfrac : BitVec 31)
  /-- LMATCH.38 (R99): PFX6 = 38; lengths 109 to 116 by default. -/
  | lmatch38 (xtra : BitVec 32) (dn : BitVec 5) (dfrac : BitVec 31)
  /-- LMATCH.39 (R99): PFX6 = 39; lengths 117 to 124 by default. -/
  | lmatch39 (xtra : BitVec 32) (dn : BitVec 5) (dfrac : BitVec 31)
  /-- LMATCH.40 (R99): PFX6 = 40; lengths 125 to 156 by default. -/
  | lmatch40 (xtra : BitVec 32) (dn : BitVec 5) (dfrac : BitVec 31)
  /-- LMATCH.41 (R99): PFX6 = 41; lengths 157 to 188 by default. -/
  | lmatch41 (xtra : BitVec 32) (dn : BitVec 5) (dfrac : BitVec 31)
  /-- LMATCH.42 (R99): PFX6 = 42; lengths 189 to 220 by default. -/
  | lmatch42 (xtra : BitVec 32) (dn : BitVec 5) (dfrac : BitVec 31)
  /-- LMATCH.43 (R99): PFX6 = 43; lengths 221 to 252 by default. -/
  | lmatch43 (xtra : BitVec 32) (dn : BitVec 5) (dfrac : BitVec 31)
  /-- LMATCH.44 (R99): PFX6 = 44; lengths 253 to 284 by default. -/
  | lmatch44 (xtra : BitVec 32) (dn : BitVec 5) (dfrac : BitVec 31)
  /-- LMATCH.45 (R99): PFX6 = 45; lengths 285 to 316 by default. -/
  | lmatch45 (xtra : BitVec 32) (dn : BitVec 5) (dfrac : BitVec 31)
  /-- LMATCH.46 (R99): PFX6 = 46; lengths 317 to 348 by default. -/
  | lmatch46 (xtra : BitVec 32) (dn : BitVec 5) (dfrac : BitVec 31)
  /-- LMATCH.47 (R99): PFX6 = 47; lengths 349 to 380 by default. -/
  | lmatch47 (xtra : BitVec 32) (dn : BitVec 5) (dfrac : BitVec 31)
  /-- LMATCH.48 (R99): PFX6 = 48; lengths 381 to 636 by default. -/
  | lmatch48 (xtra : BitVec 32) (dn : BitVec 5) (dfrac : BitVec 31)
  /-- LMATCH.49 (R99): PFX6 = 49; lengths 637 to 892 by default. -/
  | lmatch49 (xtra : BitVec 32) (dn : BitVec 5) (dfrac : BitVec 31)
  /-- LMATCH.50 (R99): PFX6 = 50; lengths 893 to 1148 by default. -/
  | lmatch50 (xtra : BitVec 32) (dn : BitVec 5) (dfrac : BitVec 31)
  /-- LMATCH.51 (R99): PFX6 = 51; lengths 1149 to 1404 by default. -/
  | lmatch51 (xtra : BitVec 32) (dn : BitVec 5) (dfrac : BitVec 31)
  /-- LMATCH.52 (R99): PFX6 = 52; lengths 1405 to 1660 by default. -/
  | lmatch52 (xtra : BitVec 32) (dn : BitVec 5) (dfrac : BitVec 31)
  /-- LMATCH.53 (R99): PFX6 = 53; lengths 1661 to 1916 by default. -/
  | lmatch53 (xtra : BitVec 32) (dn : BitVec 5) (dfrac : BitVec 31)
  /-- LMATCH.54 (R99): PFX6 = 54; lengths 1917 to 2172 by default. -/
  | lmatch54 (xtra : BitVec 32) (dn : BitVec 5) (dfrac : BitVec 31)
  /-- LMATCH.55 (R99): PFX6 = 55; lengths 2173 to 2428 by default. -/
  | lmatch55 (xtra : BitVec 32) (dn : BitVec 5) (dfrac : BitVec 31)
  /-- LMATCH.56 (R99): PFX6 = 56; lengths 2429 to 6524 by default. -/
  | lmatch56 (xtra : BitVec 32) (dn : BitVec 5) (dfrac : BitVec 31)
  /-- LMATCH.57 (R99): PFX6 = 57; lengths 6525 to 10620 by default. -/
  | lmatch57 (xtra : BitVec 32) (dn : BitVec 5) (dfrac : BitVec 31)
  /-- LMATCH.58 (R99): PFX6 = 58; lengths 10621 to 14716 by default. -/
  | lmatch58 (xtra : BitVec 32) (dn : BitVec 5) (dfrac : BitVec 31)
  /-- LMATCH.59 (R99): PFX6 = 59; lengths 14717 to 18812 by default. -/
  | lmatch59 (xtra : BitVec 32) (dn : BitVec 5) (dfrac : BitVec 31)
  /-- LMATCH.60 (R99): PFX6 = 60; lengths 18813 to 84348 by default. -/
  | lmatch60 (xtra : BitVec 32) (dn : BitVec 5) (dfrac : BitVec 31)
  /-- LMATCH.61 (R99): PFX6 = 61; lengths 84349 to 149884 by default. -/
  | lmatch61 (xtra : BitVec 32) (dn : BitVec 5) (dfrac : BitVec 31)
  /-- LMATCH.62 (R99): PFX6 = 62; lengths 149885 to 215420 by default. -/
  | lmatch62 (xtra : BitVec 32) (dn : BitVec 5) (dfrac : BitVec 31)
  /-- LMATCH.63 (R99): PFX6 = 63; lengths 215421 to 4295182716 by default. -/
  | lmatch63 (xtra : BitVec 32) (dn : BitVec 5) (dfrac : BitVec 31)
  /-- CONT (R110): the inline length field V at a chunk boundary. -/
  | cont (v : Word)
  /-- HDR (R51): the frame header, run by INIT (R72 to R76). -/
  | hdr (szexp : BitVec 6) (szfrac : BitVec 63) (inwin outwin : BitVec 6) (trail : Option Trail)
  /-- INIT (R70): command 1; operands in `ARG0` to `ARG3`. -/
  | init
  /-- DECODE (R77): command 2; operands in `ARG0`, `ARG1`. -/
  | decode
deriving DecidableEq, Repr

/-- Where an instruction stands and so which decoder reads it: a symbol of the stream, the header at
`HDR_OFF`, the inline field at a boundary, or a write of `CMD` (spec R50, R57, R58, R63). -/
inductive Slot where
  | symbol | header | cont | command
deriving DecidableEq, Repr

/-- An instruction by its format (spec R51, R52, R57, R58): the same content as `Instr`, with the prefix
as an operand. -/
inductive View where
  | short (idx : BitVec 4) (xtra : BitVec 4) (dn : BitVec 5) (dfrac : BitVec 31)
  | extended (idx : BitVec 4) (ext4 : BitVec 4) (dn : BitVec 5) (dfrac : BitVec 31)
  | literal (idx : BitVec 6) (xtra : BitVec 32)
  | long (idx : BitVec 6) (xtra : BitVec 32) (dn : BitVec 5) (dfrac : BitVec 31)
  | cont (v : Word)
  | header (szexp : BitVec 6) (szfrac : BitVec 63) (inwin outwin : BitVec 6) (trail : Option Trail)
  | init
  | decode
deriving DecidableEq, Repr

/-- The format and fields of an instruction. -/
def Instr.view : Instr → View
  | .smatch0 x dn df => .short 0 x dn df
  | .smatch1 x dn df => .short 1 x dn df
  | .smatch2 x dn df => .short 2 x dn df
  | .smatch3 x dn df => .short 3 x dn df
  | .smatch4 x dn df => .short 4 x dn df
  | .smatch5 x dn df => .short 5 x dn df
  | .smatch6 x dn df => .short 6 x dn df
  | .smatch7 x dn df => .short 7 x dn df
  | .smatch8 x dn df => .short 8 x dn df
  | .smatch9 x dn df => .short 9 x dn df
  | .smatch10 x dn df => .short 10 x dn df
  | .smatch11 x dn df => .short 11 x dn df
  | .smatch12 x dn df => .short 12 x dn df
  | .smatch13 x dn df => .short 13 x dn df
  | .smatch14 x dn df => .short 14 x dn df
  | .smatch15 x dn df => .short 15 x dn df
  | .smatchx p e dn df => .extended p e dn df
  | .litrun0 x => .literal 0 x
  | .litrun1 x => .literal 1 x
  | .litrun2 x => .literal 2 x
  | .litrun3 x => .literal 3 x
  | .litrun4 x => .literal 4 x
  | .litrun5 x => .literal 5 x
  | .litrun6 x => .literal 6 x
  | .litrun7 x => .literal 7 x
  | .litrun8 x => .literal 8 x
  | .litrun9 x => .literal 9 x
  | .litrun10 x => .literal 10 x
  | .litrun11 x => .literal 11 x
  | .litrun12 x => .literal 12 x
  | .litrun13 x => .literal 13 x
  | .litrun14 x => .literal 14 x
  | .litrun15 x => .literal 15 x
  | .litrun16 x => .literal 16 x
  | .litrun17 x => .literal 17 x
  | .litrun18 x => .literal 18 x
  | .litrun19 x => .literal 19 x
  | .litrun20 x => .literal 20 x
  | .litrun21 x => .literal 21 x
  | .litrun22 x => .literal 22 x
  | .litrun23 x => .literal 23 x
  | .litrun24 x => .literal 24 x
  | .litrun25 x => .literal 25 x
  | .litrun26 x => .literal 26 x
  | .litrun27 x => .literal 27 x
  | .litrun28 x => .literal 28 x
  | .litrun29 x => .literal 29 x
  | .litrun30 x => .literal 30 x
  | .litrun31 x => .literal 31 x
  | .lmatch32 x dn df => .long 32 x dn df
  | .lmatch33 x dn df => .long 33 x dn df
  | .lmatch34 x dn df => .long 34 x dn df
  | .lmatch35 x dn df => .long 35 x dn df
  | .lmatch36 x dn df => .long 36 x dn df
  | .lmatch37 x dn df => .long 37 x dn df
  | .lmatch38 x dn df => .long 38 x dn df
  | .lmatch39 x dn df => .long 39 x dn df
  | .lmatch40 x dn df => .long 40 x dn df
  | .lmatch41 x dn df => .long 41 x dn df
  | .lmatch42 x dn df => .long 42 x dn df
  | .lmatch43 x dn df => .long 43 x dn df
  | .lmatch44 x dn df => .long 44 x dn df
  | .lmatch45 x dn df => .long 45 x dn df
  | .lmatch46 x dn df => .long 46 x dn df
  | .lmatch47 x dn df => .long 47 x dn df
  | .lmatch48 x dn df => .long 48 x dn df
  | .lmatch49 x dn df => .long 49 x dn df
  | .lmatch50 x dn df => .long 50 x dn df
  | .lmatch51 x dn df => .long 51 x dn df
  | .lmatch52 x dn df => .long 52 x dn df
  | .lmatch53 x dn df => .long 53 x dn df
  | .lmatch54 x dn df => .long 54 x dn df
  | .lmatch55 x dn df => .long 55 x dn df
  | .lmatch56 x dn df => .long 56 x dn df
  | .lmatch57 x dn df => .long 57 x dn df
  | .lmatch58 x dn df => .long 58 x dn df
  | .lmatch59 x dn df => .long 59 x dn df
  | .lmatch60 x dn df => .long 60 x dn df
  | .lmatch61 x dn df => .long 61 x dn df
  | .lmatch62 x dn df => .long 62 x dn df
  | .lmatch63 x dn df => .long 63 x dn df
  | .cont v => .cont v
  | .hdr e f i o t => .header e f i o t
  | .init => .init
  | .decode => .decode

/-- The slot of an instruction. -/
def Instr.slot (i : Instr) : Slot :=
  match i.view with
  | .short .. | .extended .. | .literal .. | .long .. => .symbol
  | .cont _ => .cont
  | .header .. => .header
  | .init | .decode => .command

end Sys2Proof
end

