-- ==== Sys2Proof/WellFormed.lean ====
section
/-! DEFINITION. When an instruction is a value its encoding admits (spec 30_encoding R51, R52, R56, R57). -/

namespace Sys2Proof

/-- DFRAC has DN bits (spec R52). -/
def distanceWf (dn : BitVec 5) (dfrac : BitVec 31) : Bool := decide (dfrac.toNat < 2 ^ dn.toNat)

/-- LENB and TRAIL are present exactly when INWIN is constrained and not reserved, and T fits its bytes
(spec R51, R59). With a reserved INWIN the parser stops after OUTWIN (40_commands R73). -/
def trailWf (inwin : BitVec 6) (trail : Option Trail) : Bool :=
  match trail with
  | none => decide (inwin.toNat < Config.inWinMin) || decide (inwin.toNat = Config.winUnconstrained)
  | some t =>
    decide (Config.inWinMin ≤ inwin.toNat) && decide (inwin.toNat < Config.winUnconstrained) &&
      decide (t.value.toNat < 2 ^ (8 * (t.lenb.toNat + 1)))

/-- The fields of one format are in the ranges their widths admit. -/
def View.wf (f : Format) : View → Bool
  | .short idx x dn df =>
    !f.isSentinel idx && decide (x.toNat < 2 ^ (f.short idx).extraBits.toNat) && distanceWf dn df
  | .extended idx _ dn df => f.isSentinel idx && distanceWf dn df
  | .literal idx x =>
    decide (idx.toNat < Config.longLitN) && decide (x.toNat < 2 ^ (f.long idx).extraBits.toNat)
  | .long idx x dn df =>
    decide (Config.longLitN ≤ idx.toNat) && decide (x.toNat < 2 ^ (f.long idx).extraBits.toNat) &&
      distanceWf dn df
  | .cont v => decide (v.toNat < 2 ^ (8 * f.lenBytes.toNat))
  | .header e fr i _ t => decide (fr.toNat < 2 ^ e.toNat) && trailWf i t
  | .init => true
  | .decode => true

/-- A well-formed instruction of a format. -/
def Instr.wf (f : Format) (i : Instr) : Bool := i.view.wf f

end Sys2Proof
end

