-- ==== Sys2Proof/Decode.lean ====
section
/-! DEFINITION. The coded formats: default ROM contents (spec R53, R54), the description of how each format is read
(R51, R52, R57, R90, R94), the decoder over bits, the encoder, and the host's table words. A format is
described ONCE, as a `Parse`; the decoder here runs it over plain bits, the BitReader
(Machine/BitReader.lean) runs the same description over `IN`. -/

namespace Sys2Proof

/-- Default contents of `SHORT_ROM` (spec R53). -/
def defaultShortRom : Vector RomEntry 16 :=
  #v[⟨0, 2⟩, ⟨0, 3⟩, ⟨0, 4⟩, ⟨0, 5⟩,
     ⟨0, 6⟩, ⟨0, 7⟩, ⟨0, 8⟩, ⟨0, 9⟩,
     ⟨1, 10⟩, ⟨1, 12⟩, ⟨1, 14⟩, ⟨0, 16⟩,
     ⟨2, 33⟩, ⟨3, 37⟩, ⟨4, 45⟩, ⟨0, 17⟩]

/-- Default `LONG_ROM` entries 0 to 15 (spec R54). -/
def defaultLongRomA : Vector RomEntry 16 :=
  #v[⟨0, 1⟩, ⟨0, 2⟩, ⟨0, 3⟩, ⟨0, 4⟩,
     ⟨0, 5⟩, ⟨0, 6⟩, ⟨0, 7⟩, ⟨0, 8⟩,
     ⟨0, 9⟩, ⟨0, 10⟩, ⟨0, 11⟩, ⟨0, 12⟩,
     ⟨0, 13⟩, ⟨0, 14⟩, ⟨0, 15⟩, ⟨0, 16⟩]

/-- Default `LONG_ROM` entries 16 to 31 (spec R54). -/
def defaultLongRomB : Vector RomEntry 16 :=
  #v[⟨2, 17⟩, ⟨2, 21⟩, ⟨2, 25⟩, ⟨2, 29⟩,
     ⟨2, 33⟩, ⟨2, 37⟩, ⟨2, 41⟩, ⟨2, 45⟩,
     ⟨4, 49⟩, ⟨4, 65⟩, ⟨4, 81⟩, ⟨4, 97⟩,
     ⟨6, 113⟩, ⟨8, 177⟩, ⟨12, 433⟩, ⟨16, 4529⟩]

/-- Default `LONG_ROM` entries 32 to 47 (spec R54). -/
def defaultLongRomC : Vector RomEntry 16 :=
  #v[⟨3, 61⟩, ⟨3, 69⟩, ⟨3, 77⟩, ⟨3, 85⟩,
     ⟨3, 93⟩, ⟨3, 101⟩, ⟨3, 109⟩, ⟨3, 117⟩,
     ⟨5, 125⟩, ⟨5, 157⟩, ⟨5, 189⟩, ⟨5, 221⟩,
     ⟨5, 253⟩, ⟨5, 285⟩, ⟨5, 317⟩, ⟨5, 349⟩]

/-- Default `LONG_ROM` entries 48 to 63 (spec R54). -/
def defaultLongRomD : Vector RomEntry 16 :=
  #v[⟨8, 381⟩, ⟨8, 637⟩, ⟨8, 893⟩, ⟨8, 1149⟩,
     ⟨8, 1405⟩, ⟨8, 1661⟩, ⟨8, 1917⟩, ⟨8, 2173⟩,
     ⟨12, 2429⟩, ⟨12, 6525⟩, ⟨12, 10621⟩, ⟨12, 14717⟩,
     ⟨16, 18813⟩, ⟨16, 84349⟩, ⟨16, 149885⟩, ⟨32, 215421⟩]

/-- Default contents of `LONG_ROM` (spec R54). -/
def defaultLongRom : Vector RomEntry 64 :=
  ((defaultLongRomA ++ defaultLongRomB) ++ defaultLongRomC) ++ defaultLongRomD

/-- The format of the default ROMs with a given `LEN_BYTES`. -/
def defaultFormat (lenBytes : BitVec 4) : Format := ⟨defaultShortRom, defaultLongRom, lenBytes⟩

/-! ### Bits and bytes -/

/-- The low `n` bits of `v`, least significant first: the order of the stream (spec R32). -/
def natBits : Nat → Nat → List Bool
  | 0, _ => []
  | n + 1, v => decide (v % 2 = 1) :: natBits n (v / 2)

/-- The eight bits of a byte in stream order (spec R32). -/
def byteBits (b : Byte) : List Bool := natBits 8 b.toNat

/-- The bits of a run of bytes in stream order (spec R32, R33). -/
def bytesBits (bs : List Byte) : List Bool := bs.flatMap byteBits

/-- A little-endian number: the byte at the lowest position is bits 7 to 0 (spec R33). -/
def leNat : List Byte → Nat
  | [] => 0
  | b :: bs => b.toNat + 256 * leNat bs

/-- The next `n` bits as a number, first bit in bit 0 (spec R83), and the bits after them. -/
def takeBits : Nat → List Bool → Option (Nat × List Bool)
  | 0, bs => some (0, bs)
  | _ + 1, [] => none
  | n + 1, b :: bs =>
    match takeBits n bs with
    | some (v, rest) => some (b.toNat + 2 * v, rest)
    | none => none

/-! ### The description of a format -/

/-- How a coded value is read: fields in order, each width known from the fields before it. -/
inductive Parse (α : Type) where
  /-- Nothing more to read. -/
  | done (a : α)
  /-- Read an `n`-bit field (spec R83). -/
  | take (n : Nat) (k : Nat → Parse α)
  /-- Skip to the next byte boundary (spec R85). -/
  | align (k : Parse α)
  /-- Read one whole byte at a byte boundary (spec R86). -/
  | byte (k : Nat → Parse α)

/-- A field that is absent when its width is 0 (spec R83: `take` is never called with n = 0). -/
def Parse.takeOpt {α : Type} (n : Nat) (k : Nat → Parse α) : Parse α :=
  if n = 0 then k 0 else .take n k

/-- `take_wide` (spec R84). -/
def Parse.takeWide {α : Type} (n : Nat) (k : Nat → Parse α) : Parse α :=
  if n = 0 then k 0
  else if n ≤ Config.takeMax then .take n k
  else .take Config.takeMax fun lo => .take (n - Config.takeMax) fun hi => k (lo + hi * 2 ^ Config.takeMax)

/-- `n` whole bytes as a little-endian number (spec R33, R74). -/
def Parse.bytesLE {α : Type} : Nat → (Nat → Parse α) → Parse α
  | 0, k => k 0
  | n + 1, k => .byte fun b => Parse.bytesLE n fun v => k (b + 256 * v)

/-- ReadDistance's fields DN and DFRAC (spec R94). -/
def readDistance {α : Type} (k : BitVec 5 → BitVec 31 → Parse α) : Parse α :=
  .take 5 fun dn => Parse.takeOpt dn fun f => k (BitVec.ofNat 5 dn) (BitVec.ofNat 31 f)

/-- ExtendedRun's field EXT4 (spec R93), a step of its own. -/
def extendedRun {α : Type} (k : BitVec 4 → Parse α) : Parse α :=
  .take Config.extBits fun x => k (BitVec.ofNat 4 x)

/-- The short-class instruction of a prefix whose entry is no sentinel (spec R52, R90). -/
def shortInstr (idx : Nat) (x : BitVec 4) (dn : BitVec 5) (df : BitVec 31) : Instr :=
  match idx with
  | 0 => .smatch0 x dn df
  | 1 => .smatch1 x dn df
  | 2 => .smatch2 x dn df
  | 3 => .smatch3 x dn df
  | 4 => .smatch4 x dn df
  | 5 => .smatch5 x dn df
  | 6 => .smatch6 x dn df
  | 7 => .smatch7 x dn df
  | 8 => .smatch8 x dn df
  | 9 => .smatch9 x dn df
  | 10 => .smatch10 x dn df
  | 11 => .smatch11 x dn df
  | 12 => .smatch12 x dn df
  | 13 => .smatch13 x dn df
  | 14 => .smatch14 x dn df
  | _ => .smatch15 x dn df

/-- The literal run of a long prefix below 32 (spec R52, R90). -/
def literalInstr (idx : Nat) (x : BitVec 32) : Instr :=
  match idx with
  | 0 => .litrun0 x
  | 1 => .litrun1 x
  | 2 => .litrun2 x
  | 3 => .litrun3 x
  | 4 => .litrun4 x
  | 5 => .litrun5 x
  | 6 => .litrun6 x
  | 7 => .litrun7 x
  | 8 => .litrun8 x
  | 9 => .litrun9 x
  | 10 => .litrun10 x
  | 11 => .litrun11 x
  | 12 => .litrun12 x
  | 13 => .litrun13 x
  | 14 => .litrun14 x
  | 15 => .litrun15 x
  | 16 => .litrun16 x
  | 17 => .litrun17 x
  | 18 => .litrun18 x
  | 19 => .litrun19 x
  | 20 => .litrun20 x
  | 21 => .litrun21 x
  | 22 => .litrun22 x
  | 23 => .litrun23 x
  | 24 => .litrun24 x
  | 25 => .litrun25 x
  | 26 => .litrun26 x
  | 27 => .litrun27 x
  | 28 => .litrun28 x
  | 29 => .litrun29 x
  | 30 => .litrun30 x
  | _ => .litrun31 x

/-- The long match of a long prefix of 32 and above (spec R52, R90). -/
def longMatchInstr (idx : Nat) (x : BitVec 32) (dn : BitVec 5) (df : BitVec 31) : Instr :=
  match idx with
  | 32 => .lmatch32 x dn df
  | 33 => .lmatch33 x dn df
  | 34 => .lmatch34 x dn df
  | 35 => .lmatch35 x dn df
  | 36 => .lmatch36 x dn df
  | 37 => .lmatch37 x dn df
  | 38 => .lmatch38 x dn df
  | 39 => .lmatch39 x dn df
  | 40 => .lmatch40 x dn df
  | 41 => .lmatch41 x dn df
  | 42 => .lmatch42 x dn df
  | 43 => .lmatch43 x dn df
  | 44 => .lmatch44 x dn df
  | 45 => .lmatch45 x dn df
  | 46 => .lmatch46 x dn df
  | 47 => .lmatch47 x dn df
  | 48 => .lmatch48 x dn df
  | 49 => .lmatch49 x dn df
  | 50 => .lmatch50 x dn df
  | 51 => .lmatch51 x dn df
  | 52 => .lmatch52 x dn df
  | 53 => .lmatch53 x dn df
  | 54 => .lmatch54 x dn df
  | 55 => .lmatch55 x dn df
  | 56 => .lmatch56 x dn df
  | 57 => .lmatch57 x dn df
  | 58 => .lmatch58 x dn df
  | 59 => .lmatch59 x dn df
  | 60 => .lmatch60 x dn df
  | 61 => .lmatch61 x dn df
  | 62 => .lmatch62 x dn df
  | _ => .lmatch63 x dn df

/-- ReadSymbol and, for a match, ReadDistance (spec R90, R94, R97): the fields of one symbol in stream
order. -/
def symbolParse (f : Format) : Parse Instr :=
  .take 1 fun sel =>
    if sel = 0 then
      .take 4 fun idx =>
        if f.isSentinel (BitVec.ofNat 4 idx) then
          extendedRun fun x => readDistance fun dn df => .done (.smatchx (BitVec.ofNat 4 idx) x dn df)
        else
          Parse.takeOpt (f.short (BitVec.ofNat 4 idx)).extraBits.toNat fun x =>
            readDistance fun dn df => .done (shortInstr idx (BitVec.ofNat 4 x) dn df)
    else
      .take 6 fun idx =>
        Parse.takeOpt (f.long (BitVec.ofNat 6 idx)).extraBits.toNat fun x =>
          if idx < Config.longLitN then .done (literalInstr idx (BitVec.ofNat 32 x))
          else readDistance fun dn df => .done (longMatchInstr idx (BitVec.ofNat 32 x) dn df)

/-- The fields of a header (spec R51), read in the order of R72 to R74: after a reserved INWIN the parser
reads nothing more (R73 raises there, log entry 20). -/
def headerParse : Parse Instr :=
  .take 6 fun e =>
    Parse.takeWide e fun frac =>
      .take 6 fun inwin =>
        .take 6 fun outwin =>
          let hdr := Instr.hdr (BitVec.ofNat 6 e) (BitVec.ofNat 63 frac) (BitVec.ofNat 6 inwin) (BitVec.ofNat 6 outwin)
          if inwin < Config.inWinMin ∨ inwin = Config.winUnconstrained then .done (hdr none)
          else
            .take 3 fun lenb =>
              .align <| Parse.bytesLE (lenb + 1) fun t =>
                .done (hdr (some ⟨BitVec.ofNat 3 lenb, BitVec.ofNat 64 t⟩))

/-- The inline length field as an instruction: V, little-endian (spec R57, R110). -/
def decodeCont (bytes : List Byte) : Instr := .cont (BitVec.ofNat 64 (leNat bytes))

/-- Format C as a description: `LEN_BYTES` whole bytes (spec R57). -/
def contParse (f : Format) : Parse Instr :=
  Parse.bytesLE f.lenBytes.toNat fun v => .done (.cont (BitVec.ofNat 64 v))

/-- The command a write of `CMD` issues (spec R23, R58): 0 and 3 are reserved and issue none. -/
def decodeCommand (cmd : BitVec 2) : Option Instr :=
  if cmd = 1 then some .init else if cmd = 2 then some .decode else none

/-! ### The decoder over bits -/

/-- Why the decoder gives no instruction. -/
inductive Reject where
  /-- The bits end inside the instruction. -/
  | outOfBits
  /-- `CMD` 0 or 3 (spec R59: reserved, ignored). -/
  | reservedCommand
deriving DecidableEq, Repr

/-- Runs a description over bits; `pos` counts the bits from a byte boundary. -/
def Parse.runBits {α : Type} : Parse α → Nat → List Bool → Except Reject (α × List Bool)
  | .done a, _, bs => .ok (a, bs)
  | .take n k, pos, bs =>
    match takeBits n bs with
    | some (v, rest) => (k v).runBits (pos + n) rest
    | none => .error .outOfBits
  | .align k, pos, bs => k.runBits (pos + (8 - pos % 8) % 8) (bs.drop ((8 - pos % 8) % 8))
  | .byte k, pos, bs =>
    match takeBits 8 bs with
    | some (v, rest) => (k v).runBits (pos + 8) rest
    | none => .error .outOfBits

/-- The decoder: the instruction that stands in a slot, and the bits after it. Total on any bits; it
rejects by name. -/
def decodeBits (f : Format) (slot : Slot) (bs : List Bool) : Except Reject (Instr × List Bool) :=
  match slot with
  | .symbol => (symbolParse f).runBits 0 bs
  | .header => headerParse.runBits 0 bs
  | .cont => (contParse f).runBits 0 bs
  | .command =>
    match takeBits 2 bs with
    | none => .error .outOfBits
    | some (v, rest) =>
      match decodeCommand (BitVec.ofNat 2 v) with
      | some i => .ok (i, rest)
      | none => .error .reservedCommand

/-- The decoder over bytes. -/
def decodeBytes (f : Format) (slot : Slot) (bytes : List Byte) : Except Reject (Instr × List Bool) :=
  decodeBits f slot (bytesBits bytes)

/-! ### The encoder -/

/-- DN and DFRAC (spec R52). -/
def encodeDistance (dn : BitVec 5) (df : BitVec 31) : List Bool :=
  natBits 5 dn.toNat ++ natBits dn.toNat df.toNat

/-- LENB, pad and TRAIL of a header whose fields before LENB take `used` bits (spec R51); the pad is 0
(R61). -/
def encodeTrail (used : Nat) : Option Trail → List Bool
  | none => []
  | some t =>
    natBits 3 t.lenb.toNat ++ List.replicate ((8 - (used + 3) % 8) % 8) false ++
      natBits (8 * (t.lenb.toNat + 1)) t.value.toNat

/-- The bits of a format, in stream order (spec R51, R52, R57, R58). -/
def View.encode (f : Format) : View → List Bool
  | .short idx x dn df =>
    natBits 1 0 ++ natBits 4 idx.toNat ++ natBits (f.short idx).extraBits.toNat x.toNat ++ encodeDistance dn df
  | .extended idx e dn df => natBits 1 0 ++ natBits 4 idx.toNat ++ natBits 4 e.toNat ++ encodeDistance dn df
  | .literal idx x => natBits 1 1 ++ natBits 6 idx.toNat ++ natBits (f.long idx).extraBits.toNat x.toNat
  | .long idx x dn df =>
    natBits 1 1 ++ natBits 6 idx.toNat ++ natBits (f.long idx).extraBits.toNat x.toNat ++ encodeDistance dn df
  | .cont v => natBits (8 * f.lenBytes.toNat) v.toNat
  | .header e fr i o t =>
    natBits 6 e.toNat ++ natBits e.toNat fr.toNat ++ natBits 6 i.toNat ++ natBits 6 o.toNat ++
      encodeTrail (18 + e.toNat) t
  | .init => natBits 2 1
  | .decode => natBits 2 2

/-- The encoder: an instruction's own bits. A literal run's pad and bytes follow it in the stream and
are no part of it (log entry 12). -/
def encode (f : Format) (i : Instr) : List Bool := i.view.encode f

/-! ### Words of the opcode table -/

/-- The bytes of a table word, lowest first, 20 of them: its `nbits` bits, zeros above. -/
def tableBytes (nbits w : Nat) : List Byte :=
  (List.range 20).map fun i => BitVec.ofNat 8 (w % 2 ^ nbits / 256 ^ i)

/-- The slot a table word of `nbits` bits is read in (log entry 13): the stream from 5 bits up, `CMD` for 1
to 4, and for no bits at all the position-selected header. -/
def tableSlot (nbits : Nat) : Slot :=
  if nbits = 0 then .header else if nbits < 5 then .command else .symbol

/-- The instruction the decoder reads from a word of spec/opcode_table.json, with the default ROMs. -/
def decodeTableWord (nbits w : Nat) : Option Instr :=
  match decodeBytes (defaultFormat 0) (tableSlot nbits) (tableBytes nbits w) with
  | .ok (i, _) => some i
  | .error _ => none

end Sys2Proof
end

