-- ==== Sys2Proof/Machine/State.lean ====
section
/-! DEFINITION. The state of RPAK-DEC: every register, latch, ROM and memory of spec 10_state, as plain data, and
the machine right after reset (R28). -/

namespace Sys2Proof.Machine

/-- A byte memory: (offset, byte) pairs in the canonical form of `Memory.wf`. -/
abbrev Memory := List Host.Cell

/-- What an offset that the list does not hold reads as. The spec gives `IN` and `OUT` no contents at reset and
calls a read of an offset never written "any value" (93 U7, U9): DESIGN CHOICE, unsafe, log entry 6. -/
def Memory.blank : Byte := 0

/-- The canonical form: offsets strictly rising and of 64 bits, and no entry equal to what an unlisted
offset reads as. -/
abbrev Memory.wf (m : Memory) : Prop :=
  m.Pairwise (fun x y => x.1 < y.1) ∧ ∀ c ∈ m, c.1 < 2 ^ 64 ∧ c.2 ≠ Memory.blank

/-- `STATUS` (spec R22). Also the value a rule raises (R7, R120). -/
inductive Status where
  | ok | done | needMoreInput | needMoreOutput | corruptStream | headerTruncated | noSession
deriving DecidableEq, Repr

/-- `PHASE` (spec R20). -/
inductive Phase where
  | noSession | active | done | failed
deriving DecidableEq, Repr

/-- `FSM` (spec R21, R100). -/
inductive Fsm where
  | readSymbol | extendedRun | copyLiteralRun | copyMatch
deriving DecidableEq, Repr

/-- What the engine is doing: the model's own field (log entry 2). At a command boundary it is `idle`. -/
inductive Activity where
  /-- No command in progress. -/
  | idle
  /-- INIT has passed the fit check; the header is next (spec R70, R71). -/
  | init
  /-- DECODE stands at the top of a turn of its loop (spec R78). -/
  | decode
  /-- DECODE is inside a symbol step whose working copy has crossed a boundary before its first bit (R111). -/
  | symbol
deriving DecidableEq, Repr

/-- The working copy W (spec R80), on unbounded naturals (R8). Dead at a command boundary, where the model
holds `Work.none` (log entry 4). -/
structure Work where
  inByte : Nat
  bitOff : Nat
  nextBnd : Nat
  reqIn : Nat
deriving DecidableEq, Repr

/-- No working copy in force. -/
def Work.none : Work := ⟨0, 0, 0, 0⟩

/-- Why the machine stops with a fault. The engine itself never does (spec R139). -/
inductive Fault where
  /-- Raised by `hostRead` and `hostWrite` on an index at which the interface has no register (spec R23, R24
  list them all). Safe: the model stops where the spec gives no answer. -/
  | noSuchRegister (index : Nat)
deriving DecidableEq, Repr

/-- Why the machine gives a step or a host access no meaning. -/
inductive Refusal where
  /-- Raised by `exec`'s arms for an instruction without a meaning: none is left. Safe. -/
  | notModelled (mnemonic : String)
  /-- Raised by INIT with `totalLen >= 2^63`: "Behaviour for larger `totalLen` is unspecified" (92 D37, 93 U3:
  refuse). Safe. Log entry 7. -/
  | totalLenTooLarge
  /-- Raised by a host access, or a reset, between the issue of a command and its status (spec R42, R142,
  R144; 93 U4, U10: refuse). Safe. Log entry 10. -/
  | commandInProgress
  /-- Raised by a host write to a register the host may only read (spec R23, R24). Safe. Log entry 9. -/
  | readOnlyRegister (index : Nat)
deriving DecidableEq, Repr

/-- The state of the engine and of the two memories it reaches. -/
structure State where
  /-- The command written to `CMD` and not yet taken up; 0 when there is none (spec R23). -/
  cmd : BitVec 2
  /-- `ARG0` to `ARG3` (spec R23). -/
  arg0 : Word
  arg1 : Word
  arg2 : Word
  arg3 : Word
  /-- `STATUS` (spec R22, R23). -/
  status : Status
  /-- `RET0` (spec R23). -/
  ret0 : Word
  /-- `OUT_BASE`, opaque (spec R11, R23). -/
  outBase : Word
  /-- `IN_BASE`, opaque (spec R11). -/
  inBase : Word
  /-- `PHASE` (spec R20). -/
  phase : Phase
  /-- `FSM` (spec R21). -/
  fsm : Fsm
  /-- Session configuration (spec R11). -/
  totalLen : Word
  hdrOff : Word
  dataStart : Word
  decompSize : Word
  inMask : Word
  outMask : Word
  invMaskIn : Word
  invMaskOut : Word
  lenBytes : BitVec 4
  chunked : Bool
  /-- The input cursor, the program counter (spec R12). -/
  inByte : Word
  inBitoff : BitVec 3
  /-- `OUT_CUR` (spec R13). -/
  outCur : Word
  /-- `REQ_IN` (spec R14). -/
  reqIn : Word
  /-- `NEXT_BND` (spec R15). -/
  nextBnd : Word
  /-- The latches of one DECODE (spec R19); 0 outside a DECODE (log entry 14). -/
  availIn : Word
  availOut : Word
  /-- The bit accumulator and its valid-bit count (spec R27), kept empty between steps (log entry 15). -/
  acc : Word
  nbits : BitVec 7
  /-- The two ROMs (spec R25); no step writes them. -/
  shortRom : Vector RomEntry 16
  longRom : Vector RomEntry 64
  /-- `IN` (spec R30) and `OUT` (spec R31). -/
  inMem : Memory
  outMem : Memory
  /-- The model's own: the command in progress (log entry 2). -/
  activity : Activity
  /-- W (spec R80), in force inside a step (log entry 4). -/
  work : Work
  /-- The model's own: how many free values host reads have been given (log entry 8). -/
  freeCount : Nat
deriving DecidableEq, Repr

/-- The widths this state fixes (spec R25, R57). -/
def State.format (s : State) : Format := ⟨s.shortRom, s.longRom, s.lenBytes⟩

/-- Right after reset (spec R28): no session, `STATUS` 6, `RET0` 0, `FSM` ReadSymbol, `NBITS` 0; the ROMs hold their
constant contents, here the defaults (log entry 11); the registers R28 leaves unspecified hold 0 (log
entries 5, 14); the memories list nothing (log entry 6). -/
def State.reset : State where
  cmd := 0
  arg0 := 0
  arg1 := 0
  arg2 := 0
  arg3 := 0
  status := .noSession
  ret0 := 0
  outBase := 0
  inBase := 0
  phase := .noSession
  fsm := .readSymbol
  totalLen := 0
  hdrOff := 0
  dataStart := 0
  decompSize := 0
  inMask := 0
  outMask := 0
  invMaskIn := 0
  invMaskOut := 0
  lenBytes := 0
  chunked := false
  inByte := 0
  inBitoff := 0
  outCur := 0
  reqIn := 0
  nextBnd := 0
  availIn := 0
  availOut := 0
  acc := 0
  nbits := 0
  shortRom := defaultShortRom
  longRom := defaultLongRom
  inMem := []
  outMem := []
  activity := .idle
  work := Work.none
  freeCount := 0

end Sys2Proof.Machine
end

