-- ==== Sys2Proof/Machine/Ops.lean ====
section
/-! DEFINITION. The named operations: byte memories (spec R30, R31, R35), the environment of a step (R80), ending a
command, raising a status (R120, R130) and committing a symbol (R89). -/

namespace Sys2Proof.Machine

/-! ### Memory -/

/-- The byte at an offset. -/
def Memory.read : Memory → Nat → Byte
  | [], _ => Memory.blank
  | (k, b) :: rest, a => if k = a then b else Memory.read rest a

/-- Store a byte, keeping the canonical form. -/
def Memory.write : Memory → Nat → Byte → Memory
  | [], a, b => if b = Memory.blank then [] else [(a, b)]
  | (k, v) :: rest, a, b =>
    if a < k then (if b = Memory.blank then (k, v) :: rest else (a, b) :: (k, v) :: rest)
    else if a = k then (if b = Memory.blank then rest else (a, b) :: rest)
    else (k, v) :: Memory.write rest a b

/-- Store a list of (offset, byte) pairs in order (spec R89: `for (a, b) in P in order: OUT[a] <- b`). -/
def Memory.writeAll (m : Memory) (p : List (Nat × Byte)) : Memory :=
  p.foldl (fun m ab => m.write ab.1 ab.2) m

/-- The offset of a position in a window: `position & mask` (spec R40). -/
def offsetOf (position mask : Nat) : Nat := position &&& mask

/-! ### Status and phase codes -/

/-- The code of a status (spec R22). -/
def Status.code : Status → BitVec 3
  | .ok => 0
  | .done => 1
  | .needMoreInput => 2
  | .needMoreOutput => 3
  | .corruptStream => 4
  | .headerTruncated => 5
  | .noSession => 6

/-- The code of a phase (spec R20). -/
def Phase.code : Phase → BitVec 2
  | .noSession => 0
  | .active => 1
  | .done => 2
  | .failed => 3

/-- The code of an FSM state (spec R21). -/
def Fsm.code : Fsm → BitVec 2
  | .readSymbol => 0
  | .extendedRun => 1
  | .copyLiteralRun => 2
  | .copyMatch => 3

/-! ### The environment and the working copy -/

/-- The environment E of the BitReader (spec R80). -/
structure Env where
  chunked : Bool
  inMask : Nat
  total : Nat
  avail : Nat
  totalStatus : Status
  base : Nat
  lenBytes : Nat
  stride : Nat
deriving DecidableEq, Repr

/-- E of a DECODE (spec R80). The committed cursor stands where the symbol step began until it commits, so
`E.base` is `IN_BYTE`. -/
def decodeEnv (s : State) : Env where
  chunked := s.chunked
  inMask := s.inMask.toNat
  total := s.totalLen.toNat
  avail := s.availIn.toNat
  totalStatus := .corruptStream
  base := s.inByte.toNat
  lenBytes := s.lenBytes.toNat
  stride := s.invMaskIn.toNat + 1

/-- The end of the header as INIT's arguments give it: `headerOffset + headerSize` (spec R71). -/
def headerEnd (s : State) : Nat := s.arg2.toNat + s.arg3.toNat

/-- E_hdr, header mode (spec R71): linear, no boundaries, `HeaderTruncated` at the end of the header. -/
def headerEnv (s : State) : Env where
  chunked := false
  inMask := all1
  total := headerEnd s
  avail := headerEnd s
  totalStatus := .headerTruncated
  base := 0
  lenBytes := 0
  stride := 0

/-- W at the start of a symbol step: a copy of the cursor registers (spec R89). -/
def copyWork (s : State) : Work :=
  ⟨s.inByte.toNat, s.inBitoff.toNat, s.nextBnd.toNat, s.reqIn.toNat⟩

/-- W0 of INIT (spec R71): the first bit of the header. -/
def headerWork (s : State) : Work := ⟨s.arg2.toNat, 0, 0, 0⟩

/-- Put a working copy in force. -/
def setWork (w : Work) (s : State) : State := { s with work := w }

/-- Start a symbol step (spec R89): copy the cursor, `FSM <- ReadSymbol`. -/
def beginSymbol (s : State) : State := { s with work := copyWork s, fsm := .readSymbol }

/-! ### Ending a command; raising a status; resuming -/

/-- End the command in progress with a status (spec R120): the working copy is dropped, the latches of R19
are not kept (log entry 14), control goes to the host. -/
def endCommand (st : Status) (s : State) : State :=
  { s with status := st, activity := .idle, work := Work.none, availIn := 0, availOut := 0 }

/-- TAKING AN EXCEPTION: raise a status (spec R130). W and P are dropped, `FSM <- ReadSymbol`, `NBITS <- 0`
(R89), `STATUS` gets the code; a failed INIT leaves `PHASE = NoSession`, `RET0 = 0` (R76); in DECODE,
`CorruptStream` makes the phase `Failed` and the recoverable statuses leave it (R79). Nothing else changes. -/
def raiseStatus (st : Status) (s : State) : State :=
  match s.activity with
  | .init => { endCommand st s with fsm := .readSymbol, nbits := 0, phase := .noSession, ret0 := 0 }
  | _ =>
    { endCommand st s with
      fsm := .readSymbol, nbits := 0, phase := if st = .corruptStream then .failed else s.phase }

/-- RETURNING FROM AN EXCEPTION: there is no return instruction (spec R131). A re-issued DECODE resumes at the
committed cursor: it latches its arguments (R77), empties the accumulator and enters the loop. -/
def enterDecode (s : State) : State :=
  { s with
    availIn := BitVec.ofNat 64 (min s.arg0.toNat s.totalLen.toNat)
    availOut := BitVec.ofNat 64 (min s.arg1.toNat s.decompSize.toNat)
    nbits := 0
    activity := .decode }

/-- Commit a symbol step (spec R89): apply the pending writes in order, replace the cursor registers by the
working copy, add the length to `OUT_CUR`, `FSM <- ReadSymbol`. Every value fits its register in a session
(R8; log entry 16). -/
def commitSymbol (pending : List (Nat × Byte)) (w : Work) (length : Nat) (s : State) : State :=
  { s with
    outMem := s.outMem.writeAll pending
    inByte := BitVec.ofNat 64 w.inByte
    inBitoff := BitVec.ofNat 3 w.bitOff
    nextBnd := BitVec.ofNat 64 w.nextBnd
    reqIn := BitVec.ofNat 64 w.reqIn
    outCur := BitVec.ofNat 64 (s.outCur.toNat + length)
    fsm := .readSymbol
    work := Work.none
    activity := .decode }

end Sys2Proof.Machine
end

