-- ==== Sys2Proof/Machine/BitReader.lean ====
section
/-! DEFINITION. The BitReader (spec 41_bitreader R80 to R86) and the crossing of a chunk boundary inside a fetch
(43_continuation R110, R111). Every function works on a working copy and writes nothing else; a status it
raises is its error. -/

namespace Sys2Proof.Machine

/-! ### The continuation field -/

/-- The cursor stands on a chunk boundary whose field a fetch must consume (spec R82, R111). -/
def onBoundary (e : Env) (w : Work) : Bool := e.chunked && w.inByte == w.nextBnd

/-- Checks (a), (b), (c) of the field at the boundary, in order (spec R110). -/
def contChecks (e : Env) (w : Work) : Option Status :=
  if w.nextBnd + e.lenBytes > e.base + e.inMask + 1 then some .corruptStream
  else if w.nextBnd + e.lenBytes > e.total then some .corruptStream
  else if w.nextBnd + e.lenBytes > e.avail then some .needMoreInput
  else none

/-- The bytes of the field, at positions B to `B + LEN_BYTES - 1` (spec R57, R110). -/
def contBytes (m : Memory) (e : Env) (w : Work) : List Byte :=
  (List.range e.lenBytes).map fun i => m.read (offsetOf (w.nextBnd + i) e.inMask)

/-- Check (d) and the writes of W for a field of value V (spec R110). -/
def contApply (e : Env) (v : Nat) (w : Work) : Except Status Work :=
  if w.nextBnd + e.lenBytes + v > min (w.nextBnd + e.stride) e.total then .error .corruptStream
  else .ok { w with
    inByte := w.nextBnd + e.lenBytes
    nextBnd := w.nextBnd + e.stride
    reqIn := w.nextBnd + e.lenBytes + v }

/-- The continuation field at the boundary as an instruction, or the status its checks raise (spec R110). -/
def readCont (m : Memory) (e : Env) (w : Work) : Except Status Instr :=
  match contChecks e w with
  | some st => .error st
  | none => .ok (decodeCont (contBytes m e w))

/-- V of a continuation instruction. -/
def contValue : Instr → Nat
  | .cont v => v.toNat
  | _ => 0

/-- CrossBoundary (spec R110). -/
def crossBoundary (m : Memory) (e : Env) (w : Work) : Except Status Work :=
  match readCont m e w with
  | .error st => .error st
  | .ok i => contApply e (contValue i) w

/-! ### Fetching -/

/-- Checks (a), (b), (c) of the byte at a position, in order (spec R82). -/
def byteChecks (e : Env) (p : Nat) : Option Status :=
  if e.inMask ≠ all1 ∧ p ≥ e.base + e.inMask + 1 then some .corruptStream
  else if p ≥ e.total then some e.totalStatus
  else if p ≥ e.avail then some .needMoreInput
  else none

/-- Cross the boundary if the cursor stands on one (spec R82, R111). -/
def crossIfNeeded (m : Memory) (e : Env) (w : Work) : Except Status Work :=
  if onBoundary e w then crossBoundary m e w else .ok w

/-- FetchByte (spec R82): the byte the cursor stands in, and W, which a crossing moves. -/
def fetchByte (m : Memory) (e : Env) (w : Work) : Except Status (Byte × Work) :=
  match crossIfNeeded m e w with
  | .error st => .error st
  | .ok w' =>
    match byteChecks e w'.inByte with
    | some st => .error st
    | none => .ok (m.read (offsetOf w'.inByte e.inMask), w')

/-- Advance the cursor by one bit (spec R83). -/
def advanceBit (w : Work) : Work :=
  if w.bitOff + 1 = 8 then { w with bitOff := 0, inByte := w.inByte + 1 } else { w with bitOff := w.bitOff + 1 }

/-- One turn of `take`'s loop: the bit at the cursor (spec R83). -/
def takeBit (m : Memory) (e : Env) (w : Work) : Except Status (Nat × Work) :=
  match fetchByte m e w with
  | .error st => .error st
  | .ok (b, w') => .ok (b.toNat >>> w'.bitOff % 2, advanceBit w')

/-- `take(n)` (spec R83): the next n bits of the logical stream, first bit in bit 0. -/
def take (m : Memory) (e : Env) : Nat → Work → Except Status (Nat × Work)
  | 0, w => .ok (0, w)
  | n + 1, w =>
    match takeBit m e w with
    | .error st => .error st
    | .ok (b, w') =>
      match take m e n w' with
      | .error st => .error st
      | .ok (v, w'') => .ok (b + 2 * v, w'')

/-- `take_wide(n)` (spec R84). -/
def takeWide (m : Memory) (e : Env) (n : Nat) (w : Work) : Except Status (Nat × Work) :=
  if n = 0 then .ok (0, w)
  else if n ≤ Config.takeMax then take m e n w
  else
    match take m e Config.takeMax w with
    | .error st => .error st
    | .ok (lo, w') =>
      match take m e (n - Config.takeMax) w' with
      | .error st => .error st
      | .ok (hi, w'') => .ok (lo + hi * 2 ^ Config.takeMax, w'')

/-- `align` (spec R85): to the next byte boundary; no fetch, no status. -/
def alignWork (w : Work) : Work :=
  if w.bitOff = 0 then w else { w with bitOff := 0, inByte := w.inByte + 1 }

/-- `take_byte` (spec R86), at a byte-aligned cursor. -/
def takeByte (m : Memory) (e : Env) (w : Work) : Except Status (Byte × Work) :=
  match fetchByte m e w with
  | .error st => .error st
  | .ok (b, w') => .ok (b, { w' with inByte := w'.inByte + 1 })

/-- `n` whole bytes in order, for a literal run (spec R96). -/
def takeBytes (m : Memory) (e : Env) : Nat → Work → Except Status (List Byte × Work)
  | 0, w => .ok ([], w)
  | n + 1, w =>
    match takeByte m e w with
    | .error st => .error st
    | .ok (b, w') =>
      match takeBytes m e n w' with
      | .error st => .error st
      | .ok (bs, w'') => .ok (b :: bs, w'')

/-- Run the description of a format over the logical stream at the cursor: the same description that
`Parse.runBits` runs over plain bits. -/
def runParse {α : Type} (m : Memory) (e : Env) : Parse α → Work → Except Status (α × Work)
  | .done a, w => .ok (a, w)
  | .take n k, w =>
    match take m e n w with
    | .error st => .error st
    | .ok (v, w') => runParse m e (k v) w'
  | .align k, w => runParse m e k (alignWork w)
  | .byte k, w =>
    match takeByte m e w with
    | .error st => .error st
    | .ok (b, w') => runParse m e (k b.toNat) w'

end Sys2Proof.Machine
end

