-- ==== Sys2Proof/Machine/Flags.lean ====
section
/-! DEFINITION. What steers the engine. There are no condition codes (spec R89); `PHASE` is the only flag (R20).
Here: the gates of the decode loop (R18, R78, R112, R113) and the decode state machine (R21, R100). -/

namespace Sys2Proof.Machine

/-- `REQ_OUT` (spec R18): the end of the output window lap that holds `OUT_CUR`, capped by the declared size. -/
def reqOut (s : State) : Nat :=
  if s.invMaskOut.toNat = all1 then s.decompSize.toNat
  else min ((s.outCur.toNat ||| s.invMaskOut.toNat) + 1) s.decompSize.toNat

/-- The tests at the top of a turn of the loop, in order (spec R78): termination, input gate, output gate. -/
def loopTest (s : State) : Option Status :=
  if s.outCur = s.decompSize then some .done
  else if s.availIn.toNat < s.reqIn.toNat then some .needMoreInput
  else if s.availOut.toNat < reqOut s then some .needMoreOutput
  else none

/-- Leave the loop by one of its tests (spec R78): `PHASE <- Done` at termination; a gate changes no register but
`STATUS`. -/
def stopLoop (st : Status) (s : State) : State :=
  { endCommand st s with phase := if st = .done then .done else s.phase }

/-- The events of the decode state machine (spec R100). -/
inductive FsmEvent where
  | shortClass | shortSentinel | extBitsRead | longLiteral | longMatch | copyComplete | statusRaised
deriving DecidableEq, Repr

/-- The transitions of the decode state machine, row by row (spec R100); `none` where the table has no row. -/
def fsmNext : Fsm → FsmEvent → Option Fsm
  | _, .statusRaised => some .readSymbol
  | .readSymbol, .shortClass => some .copyMatch
  | .readSymbol, .shortSentinel => some .extendedRun
  | .extendedRun, .extBitsRead => some .copyMatch
  | .readSymbol, .longLiteral => some .copyLiteralRun
  | .readSymbol, .longMatch => some .copyMatch
  | .copyLiteralRun, .copyComplete => some .readSymbol
  | .copyMatch, .copyComplete => some .readSymbol
  | _, _ => none

/-- The events that reading an instruction's fields causes (spec R90, R93, R100). -/
def readEvents (i : Instr) : List FsmEvent :=
  match i.view with
  | .short .. => [.shortClass]
  | .extended .. => [.shortSentinel, .extBitsRead]
  | .literal .. => [.longLiteral]
  | .long .. => [.longMatch]
  | .cont _ | .header .. | .init | .decode => []

/-- Run the state machine over events; an event without a row leaves the state. -/
def fsmRun (f : Fsm) (es : List FsmEvent) : Fsm := es.foldl (fun f e => (fsmNext f e).getD f) f

end Sys2Proof.Machine
end

