-- ==== Sys2Proof/Machine/Operands.lean ====
section
/-! DEFINITION. The operands of the symbols and of the header, assembled (spec 30_encoding R56), the bounds checks
(42_symbols R98) and the two copies (R96, R97). -/

namespace Sys2Proof.Machine

/-! ### Values -/

/-- Length of SMATCH, LITRUN, LMATCH: `baseLength + XTRA` (spec R56, R90). -/
def codedLength (entry : RomEntry) (xtra : Nat) : Nat := entry.baseLength.toNat + xtra

/-- Length of SMATCHX: `17 + EXT4` (spec R56, R93). -/
def extendedLength (ext4 : BitVec 4) : Nat := Config.sentinel + ext4.toNat

/-- Distance of a match: `2^DN + DFRAC` (spec R56, R94). -/
def distanceOf (dn : BitVec 5) (dfrac : BitVec 31) : Nat := 2 ^ dn.toNat + dfrac.toNat

/-- `DECOMP_SIZE = 2^SZEXP + SZFRAC` (spec R56, R72). -/
def decompSizeOf (szexp : BitVec 6) (szfrac : BitVec 63) : Nat := 2 ^ szexp.toNat + szfrac.toNat

/-- The mask of a window code: `ALL1` for 63, else `2^code - 1` (spec R56, R73). -/
def windowMask (code : BitVec 6) : Nat :=
  if code.toNat = Config.winUnconstrained then all1 else 2 ^ code.toNat - 1

/-- `LEN_BYTES`: `LENB + 1`, or 0 when the field is absent (spec R56, R74). -/
def lenBytesOf : Option Trail → Nat
  | none => 0
  | some t => t.lenb.toNat + 1

/-- T, the trailing length (spec R56, R74). -/
def trailingLength : Option Trail → Nat
  | none => 0
  | some t => t.value.toNat

/-! ### The bounds checks -/

/-- Checks 1 and 2 (spec R98). -/
def checkLength (s : State) (length : Nat) : Option Status :=
  if s.outCur.toNat + length > s.decompSize.toNat then some .corruptStream
  else if s.outMask.toNat ≠ all1 ∧ length > s.outMask.toNat + 1 then some .corruptStream
  else none

/-- Checks 3 and 4 (spec R98). -/
def checkDistance (s : State) (distance : Nat) : Option Status :=
  if distance > s.outCur.toNat then some .corruptStream
  else if s.outMask.toNat ≠ all1 ∧ distance > s.outMask.toNat + 1 then some .corruptStream
  else none

/-- Check 5 (spec R98). -/
def checkRoom (s : State) (length : Nat) : Option Status :=
  if s.outCur.toNat + length > s.availOut.toNat then some .needMoreOutput else none

/-- The first of two checks that raises (spec R102). -/
def firstOf (a b : Option Status) : Option Status :=
  match a with
  | some st => some st
  | none => b

/-- The checks of a match before its copy, in order (spec R97, R102). -/
def matchChecks (s : State) (length distance : Nat) : Option Status :=
  firstOf (checkLength s length) (firstOf (checkDistance s distance) (checkRoom s length))

/-- The checks of a literal run before its bytes are fetched, in order (spec R96, R102). -/
def literalChecks (s : State) (length : Nat) : Option Status :=
  firstOf (checkLength s length) (checkRoom s length)

/-! ### The copies -/

/-- The bytes a match produces, in order (spec R97): byte i is the pending byte of position `c + i - distance`
where that is at or after c, else the byte of `OUT`. -/
def matchBytes (m : Memory) (mask c distance : Nat) : Nat → List Byte
  | 0 => []
  | i + 1 =>
    let p := matchBytes m mask c distance i
    let src := c + i - distance
    p ++ [if c ≤ src then p.getD (src - c) Memory.blank else m.read (offsetOf src mask)]

/-- P, the pending writes of a step (spec R89, R96, R97): byte i goes to offset `(c + i) & OUT_MASK`. -/
def pendingWrites (mask : Nat) : Nat → List Byte → List (Nat × Byte)
  | _, [] => []
  | c, b :: bs => (offsetOf c mask, b) :: pendingWrites mask (c + 1) bs

/-- CopyMatch (spec R97) after ReadDistance, and the commit of the step (R89). -/
def copyMatch (length distance : Nat) (s : State) : Host.Outcome State Fault Refusal :=
  match matchChecks s length distance with
  | some st => .next (raiseStatus st s)
  | none =>
    .next (commitSymbol
      (pendingWrites s.outMask.toNat s.outCur.toNat
        (matchBytes s.outMem s.outMask.toNat s.outCur.toNat distance length))
      s.work length s)

/-- CopyLiteralRun (spec R96) and the commit of the step (R89). -/
def copyLiteralRun (length : Nat) (s : State) : Host.Outcome State Fault Refusal :=
  match literalChecks s length with
  | some st => .next (raiseStatus st s)
  | none =>
    match takeBytes s.inMem (decodeEnv s) length (alignWork s.work) with
    | .error st => .next (raiseStatus st s)
    | .ok (bs, w) => .next (commitSymbol (pendingWrites s.outMask.toNat s.outCur.toNat bs) w length s)

end Sys2Proof.Machine
end

