-- ==== Sys2Proof/Machine/Commands.lean ====
section
/-! DEFINITION. DECODE, the pull-based decode call (spec 40_commands R77). Its loop (R78) is run by the steps that
follow (Machine/Fetch.lean). -/

namespace Sys2Proof.Machine

/-- DECODE (spec R77): by phase. Outside `Active` only `STATUS` changes. -/
def execDecode (s : State) : Host.Outcome State Fault Refusal :=
  match s.phase with
  | .noSession => .next { s with status := .noSession }
  | .failed => .next { s with status := .corruptStream }
  | .done => .next { s with status := .done }
  | .active => .next (enterDecode s)

end Sys2Proof.Machine
end

