-- ==== Sys2Proof/Machine/Continuation.lean ====
section
/-! DEFINITION. CONT, the inline length field (spec 43_continuation R110). -/

namespace Sys2Proof.Machine

/-- CONT (spec R110) on the working copy in force, after checks (a), (b), (c) have passed and V has been read: check
(d), then W moves over the field. The registers get it when the symbol step commits (R89). -/
def execCont (v : Word) (s : State) : Host.Outcome State Fault Refusal :=
  match contApply (decodeEnv s) v.toNat s.work with
  | .error st => .next (raiseStatus st s)
  | .ok w => .next { setWork w s with activity := .symbol }

end Sys2Proof.Machine
end

