-- ==== Sys2Proof/Machine/Header.lean ====
section
/-! DEFINITION. INIT and HDR, the FrameHeader Parser (spec 40_commands R70 to R76). -/

namespace Sys2Proof.Machine

/-- `NEXT_BND` of a new session (spec R75). -/
def initNextBnd (inwin : BitVec 6) (s : State) : Nat :=
  if inwin.toNat = Config.winUnconstrained then all1 else (headerEnd s ||| windowMask inwin) + 1

/-- `REQ_IN` of a new session (spec R75). -/
def initReqIn (inwin : BitVec 6) (trail : Option Trail) (s : State) : Nat :=
  if inwin.toNat = Config.winUnconstrained then s.arg1.toNat else headerEnd s + trailingLength trail

/-- init_state (spec R75) and the successful result (R76). -/
def openSession (szexp : BitVec 6) (szfrac : BitVec 63) (inwin outwin : BitVec 6) (trail : Option Trail) (s : State) :
    State :=
  { endCommand .ok s with
    inBase := s.arg0
    totalLen := s.arg1
    hdrOff := s.arg2
    dataStart := BitVec.ofNat 64 (headerEnd s)
    decompSize := BitVec.ofNat 64 (decompSizeOf szexp szfrac)
    inMask := BitVec.ofNat 64 (windowMask inwin)
    outMask := BitVec.ofNat 64 (windowMask outwin)
    invMaskIn := BitVec.ofNat 64 (windowMask inwin)
    invMaskOut := BitVec.ofNat 64 (windowMask outwin)
    lenBytes := BitVec.ofNat 4 (lenBytesOf trail)
    chunked := decide (inwin.toNat ≠ Config.winUnconstrained)
    inByte := BitVec.ofNat 64 (headerEnd s)
    inBitoff := 0
    outCur := 0
    reqIn := BitVec.ofNat 64 (initReqIn inwin trail s)
    nextBnd := BitVec.ofNat 64 (initNextBnd inwin s)
    nbits := 0
    fsm := .readSymbol
    phase := .active
    ret0 := BitVec.ofNat 64 (initReqIn inwin trail s) }

/-- The reserved-code test of R73 and the trailing-length test of R75. -/
def headerChecks (inwin : BitVec 6) (trail : Option Trail) (s : State) : Option Status :=
  if inwin.toNat < Config.inWinMin then some .corruptStream
  else if inwin.toNat ≠ Config.winUnconstrained ∧
      initReqIn inwin trail s > min (initNextBnd inwin s) s.arg1.toNat then some .corruptStream
  else none

/-- HDR (spec R72 to R76), its fields read: the tests, then the session. -/
def execHdr (szexp : BitVec 6) (szfrac : BitVec 63) (inwin outwin : BitVec 6) (trail : Option Trail) (s : State) :
    Host.Outcome State Fault Refusal :=
  match headerChecks inwin trail s with
  | some st => .next (raiseStatus st s)
  | none => .next (openSession szexp szfrac inwin outwin trail s)

/-- INIT begins (spec R70): any session is discarded, and the header is to be read from its first bit (R71). -/
def beginInit (s : State) : State :=
  { s with phase := .noSession, activity := .init, work := headerWork s, fsm := .readSymbol }

/-- INIT (spec R70, R71): discard the session, the fit check, then the header (HDR) in header mode. An INIT
with `totalLen >= 2^63` has unspecified behaviour and is refused (92 D37; log entry 7). -/
def execInit (s : State) : Host.Outcome State Fault Refusal :=
  if s.arg1.toNat ≥ Config.totalLenBound then .refused .totalLenTooLarge
  else if headerEnd s > s.arg1.toNat then .next (raiseStatus .headerTruncated (beginInit s))
  else .next (beginInit s)

end Sys2Proof.Machine
end

