-- ==== Sys2Proof/Machine/LiteralRun.lean ====
section
/-! DEFINITION. The literal runs LITRUN.0 to LITRUN.31 (spec 42_symbols R95). -/

namespace Sys2Proof.Machine

/-- LITRUN (spec R95): length from `LONG_ROM[idx]` and XTRA, then CopyLiteralRun. -/
def literalRun (idx : BitVec 6) (xtra : BitVec 32) (s : State) : Host.Outcome State Fault Refusal :=
  copyLiteralRun (codedLength (s.format.long idx) xtra.toNat) s

/-- LITRUN.0 (spec R95), PFX6 = 0. -/
def execLitrun0 (xtra : BitVec 32) (s : State) : Host.Outcome State Fault Refusal :=
  literalRun 0 xtra s

/-- LITRUN.1 (spec R95), PFX6 = 1. -/
def execLitrun1 (xtra : BitVec 32) (s : State) : Host.Outcome State Fault Refusal :=
  literalRun 1 xtra s

/-- LITRUN.2 (spec R95), PFX6 = 2. -/
def execLitrun2 (xtra : BitVec 32) (s : State) : Host.Outcome State Fault Refusal :=
  literalRun 2 xtra s

/-- LITRUN.3 (spec R95), PFX6 = 3. -/
def execLitrun3 (xtra : BitVec 32) (s : State) : Host.Outcome State Fault Refusal :=
  literalRun 3 xtra s

/-- LITRUN.4 (spec R95), PFX6 = 4. -/
def execLitrun4 (xtra : BitVec 32) (s : State) : Host.Outcome State Fault Refusal :=
  literalRun 4 xtra s

/-- LITRUN.5 (spec R95), PFX6 = 5. -/
def execLitrun5 (xtra : BitVec 32) (s : State) : Host.Outcome State Fault Refusal :=
  literalRun 5 xtra s

/-- LITRUN.6 (spec R95), PFX6 = 6. -/
def execLitrun6 (xtra : BitVec 32) (s : State) : Host.Outcome State Fault Refusal :=
  literalRun 6 xtra s

/-- LITRUN.7 (spec R95), PFX6 = 7. -/
def execLitrun7 (xtra : BitVec 32) (s : State) : Host.Outcome State Fault Refusal :=
  literalRun 7 xtra s

/-- LITRUN.8 (spec R95), PFX6 = 8. -/
def execLitrun8 (xtra : BitVec 32) (s : State) : Host.Outcome State Fault Refusal :=
  literalRun 8 xtra s

/-- LITRUN.9 (spec R95), PFX6 = 9. -/
def execLitrun9 (xtra : BitVec 32) (s : State) : Host.Outcome State Fault Refusal :=
  literalRun 9 xtra s

/-- LITRUN.10 (spec R95), PFX6 = 10. -/
def execLitrun10 (xtra : BitVec 32) (s : State) : Host.Outcome State Fault Refusal :=
  literalRun 10 xtra s

/-- LITRUN.11 (spec R95), PFX6 = 11. -/
def execLitrun11 (xtra : BitVec 32) (s : State) : Host.Outcome State Fault Refusal :=
  literalRun 11 xtra s

/-- LITRUN.12 (spec R95), PFX6 = 12. -/
def execLitrun12 (xtra : BitVec 32) (s : State) : Host.Outcome State Fault Refusal :=
  literalRun 12 xtra s

/-- LITRUN.13 (spec R95), PFX6 = 13. -/
def execLitrun13 (xtra : BitVec 32) (s : State) : Host.Outcome State Fault Refusal :=
  literalRun 13 xtra s

/-- LITRUN.14 (spec R95), PFX6 = 14. -/
def execLitrun14 (xtra : BitVec 32) (s : State) : Host.Outcome State Fault Refusal :=
  literalRun 14 xtra s

/-- LITRUN.15 (spec R95), PFX6 = 15. -/
def execLitrun15 (xtra : BitVec 32) (s : State) : Host.Outcome State Fault Refusal :=
  literalRun 15 xtra s

/-- LITRUN.16 (spec R95), PFX6 = 16. -/
def execLitrun16 (xtra : BitVec 32) (s : State) : Host.Outcome State Fault Refusal :=
  literalRun 16 xtra s

/-- LITRUN.17 (spec R95), PFX6 = 17. -/
def execLitrun17 (xtra : BitVec 32) (s : State) : Host.Outcome State Fault Refusal :=
  literalRun 17 xtra s

/-- LITRUN.18 (spec R95), PFX6 = 18. -/
def execLitrun18 (xtra : BitVec 32) (s : State) : Host.Outcome State Fault Refusal :=
  literalRun 18 xtra s

/-- LITRUN.19 (spec R95), PFX6 = 19. -/
def execLitrun19 (xtra : BitVec 32) (s : State) : Host.Outcome State Fault Refusal :=
  literalRun 19 xtra s

/-- LITRUN.20 (spec R95), PFX6 = 20. -/
def execLitrun20 (xtra : BitVec 32) (s : State) : Host.Outcome State Fault Refusal :=
  literalRun 20 xtra s

/-- LITRUN.21 (spec R95), PFX6 = 21. -/
def execLitrun21 (xtra : BitVec 32) (s : State) : Host.Outcome State Fault Refusal :=
  literalRun 21 xtra s

/-- LITRUN.22 (spec R95), PFX6 = 22. -/
def execLitrun22 (xtra : BitVec 32) (s : State) : Host.Outcome State Fault Refusal :=
  literalRun 22 xtra s

/-- LITRUN.23 (spec R95), PFX6 = 23. -/
def execLitrun23 (xtra : BitVec 32) (s : State) : Host.Outcome State Fault Refusal :=
  literalRun 23 xtra s

/-- LITRUN.24 (spec R95), PFX6 = 24. -/
def execLitrun24 (xtra : BitVec 32) (s : State) : Host.Outcome State Fault Refusal :=
  literalRun 24 xtra s

/-- LITRUN.25 (spec R95), PFX6 = 25. -/
def execLitrun25 (xtra : BitVec 32) (s : State) : Host.Outcome State Fault Refusal :=
  literalRun 25 xtra s

/-- LITRUN.26 (spec R95), PFX6 = 26. -/
def execLitrun26 (xtra : BitVec 32) (s : State) : Host.Outcome State Fault Refusal :=
  literalRun 26 xtra s

/-- LITRUN.27 (spec R95), PFX6 = 27. -/
def execLitrun27 (xtra : BitVec 32) (s : State) : Host.Outcome State Fault Refusal :=
  literalRun 27 xtra s

/-- LITRUN.28 (spec R95), PFX6 = 28. -/
def execLitrun28 (xtra : BitVec 32) (s : State) : Host.Outcome State Fault Refusal :=
  literalRun 28 xtra s

/-- LITRUN.29 (spec R95), PFX6 = 29. -/
def execLitrun29 (xtra : BitVec 32) (s : State) : Host.Outcome State Fault Refusal :=
  literalRun 29 xtra s

/-- LITRUN.30 (spec R95), PFX6 = 30. -/
def execLitrun30 (xtra : BitVec 32) (s : State) : Host.Outcome State Fault Refusal :=
  literalRun 30 xtra s

/-- LITRUN.31 (spec R95), PFX6 = 31. -/
def execLitrun31 (xtra : BitVec 32) (s : State) : Host.Outcome State Fault Refusal :=
  literalRun 31 xtra s

end Sys2Proof.Machine
end

