-- ==== Sys2Proof/Machine/LongMatch.lean ====
section
/-! DEFINITION. The long matches LMATCH.32 to LMATCH.63 (spec 42_symbols R99). -/

namespace Sys2Proof.Machine

/-- LMATCH (spec R99): length from `LONG_ROM[idx]` and XTRA, distance from DN and DFRAC, then CopyMatch. -/
def longMatch (idx : BitVec 6) (xtra : BitVec 32) (dn : BitVec 5) (dfrac : BitVec 31) (s : State) :
    Host.Outcome State Fault Refusal :=
  copyMatch (codedLength (s.format.long idx) xtra.toNat) (distanceOf dn dfrac) s

/-- LMATCH.32 (spec R99), PFX6 = 32. -/
def execLmatch32 (xtra : BitVec 32) (dn : BitVec 5) (dfrac : BitVec 31) (s : State) :
    Host.Outcome State Fault Refusal := longMatch 32 xtra dn dfrac s

/-- LMATCH.33 (spec R99), PFX6 = 33. -/
def execLmatch33 (xtra : BitVec 32) (dn : BitVec 5) (dfrac : BitVec 31) (s : State) :
    Host.Outcome State Fault Refusal := longMatch 33 xtra dn dfrac s

/-- LMATCH.34 (spec R99), PFX6 = 34. -/
def execLmatch34 (xtra : BitVec 32) (dn : BitVec 5) (dfrac : BitVec 31) (s : State) :
    Host.Outcome State Fault Refusal := longMatch 34 xtra dn dfrac s

/-- LMATCH.35 (spec R99), PFX6 = 35. -/
def execLmatch35 (xtra : BitVec 32) (dn : BitVec 5) (dfrac : BitVec 31) (s : State) :
    Host.Outcome State Fault Refusal := longMatch 35 xtra dn dfrac s

/-- LMATCH.36 (spec R99), PFX6 = 36. -/
def execLmatch36 (xtra : BitVec 32) (dn : BitVec 5) (dfrac : BitVec 31) (s : State) :
    Host.Outcome State Fault Refusal := longMatch 36 xtra dn dfrac s

/-- LMATCH.37 (spec R99), PFX6 = 37. -/
def execLmatch37 (xtra : BitVec 32) (dn : BitVec 5) (dfrac : BitVec 31) (s : State) :
    Host.Outcome State Fault Refusal := longMatch 37 xtra dn dfrac s

/-- LMATCH.38 (spec R99), PFX6 = 38. -/
def execLmatch38 (xtra : BitVec 32) (dn : BitVec 5) (dfrac : BitVec 31) (s : State) :
    Host.Outcome State Fault Refusal := longMatch 38 xtra dn dfrac s

/-- LMATCH.39 (spec R99), PFX6 = 39. -/
def execLmatch39 (xtra : BitVec 32) (dn : BitVec 5) (dfrac : BitVec 31) (s : State) :
    Host.Outcome State Fault Refusal := longMatch 39 xtra dn dfrac s

/-- LMATCH.40 (spec R99), PFX6 = 40. -/
def execLmatch40 (xtra : BitVec 32) (dn : BitVec 5) (dfrac : BitVec 31) (s : State) :
    Host.Outcome State Fault Refusal := longMatch 40 xtra dn dfrac s

/-- LMATCH.41 (spec R99), PFX6 = 41. -/
def execLmatch41 (xtra : BitVec 32) (dn : BitVec 5) (dfrac : BitVec 31) (s : State) :
    Host.Outcome State Fault Refusal := longMatch 41 xtra dn dfrac s

/-- LMATCH.42 (spec R99), PFX6 = 42. -/
def execLmatch42 (xtra : BitVec 32) (dn : BitVec 5) (dfrac : BitVec 31) (s : State) :
    Host.Outcome State Fault Refusal := longMatch 42 xtra dn dfrac s

/-- LMATCH.43 (spec R99), PFX6 = 43. -/
def execLmatch43 (xtra : BitVec 32) (dn : BitVec 5) (dfrac : BitVec 31) (s : State) :
    Host.Outcome State Fault Refusal := longMatch 43 xtra dn dfrac s

/-- LMATCH.44 (spec R99), PFX6 = 44. -/
def execLmatch44 (xtra : BitVec 32) (dn : BitVec 5) (dfrac : BitVec 31) (s : State) :
    Host.Outcome State Fault Refusal := longMatch 44 xtra dn dfrac s

/-- LMATCH.45 (spec R99), PFX6 = 45. -/
def execLmatch45 (xtra : BitVec 32) (dn : BitVec 5) (dfrac : BitVec 31) (s : State) :
    Host.Outcome State Fault Refusal := longMatch 45 xtra dn dfrac s

/-- LMATCH.46 (spec R99), PFX6 = 46. -/
def execLmatch46 (xtra : BitVec 32) (dn : BitVec 5) (dfrac : BitVec 31) (s : State) :
    Host.Outcome State Fault Refusal := longMatch 46 xtra dn dfrac s

/-- LMATCH.47 (spec R99), PFX6 = 47. -/
def execLmatch47 (xtra : BitVec 32) (dn : BitVec 5) (dfrac : BitVec 31) (s : State) :
    Host.Outcome State Fault Refusal := longMatch 47 xtra dn dfrac s

/-- LMATCH.48 (spec R99), PFX6 = 48. -/
def execLmatch48 (xtra : BitVec 32) (dn : BitVec 5) (dfrac : BitVec 31) (s : State) :
    Host.Outcome State Fault Refusal := longMatch 48 xtra dn dfrac s

/-- LMATCH.49 (spec R99), PFX6 = 49. -/
def execLmatch49 (xtra : BitVec 32) (dn : BitVec 5) (dfrac : BitVec 31) (s : State) :
    Host.Outcome State Fault Refusal := longMatch 49 xtra dn dfrac s

/-- LMATCH.50 (spec R99), PFX6 = 50. -/
def execLmatch50 (xtra : BitVec 32) (dn : BitVec 5) (dfrac : BitVec 31) (s : State) :
    Host.Outcome State Fault Refusal := longMatch 50 xtra dn dfrac s

/-- LMATCH.51 (spec R99), PFX6 = 51. -/
def execLmatch51 (xtra : BitVec 32) (dn : BitVec 5) (dfrac : BitVec 31) (s : State) :
    Host.Outcome State Fault Refusal := longMatch 51 xtra dn dfrac s

/-- LMATCH.52 (spec R99), PFX6 = 52. -/
def execLmatch52 (xtra : BitVec 32) (dn : BitVec 5) (dfrac : BitVec 31) (s : State) :
    Host.Outcome State Fault Refusal := longMatch 52 xtra dn dfrac s

/-- LMATCH.53 (spec R99), PFX6 = 53. -/
def execLmatch53 (xtra : BitVec 32) (dn : BitVec 5) (dfrac : BitVec 31) (s : State) :
    Host.Outcome State Fault Refusal := longMatch 53 xtra dn dfrac s

/-- LMATCH.54 (spec R99), PFX6 = 54. -/
def execLmatch54 (xtra : BitVec 32) (dn : BitVec 5) (dfrac : BitVec 31) (s : State) :
    Host.Outcome State Fault Refusal := longMatch 54 xtra dn dfrac s

/-- LMATCH.55 (spec R99), PFX6 = 55. -/
def execLmatch55 (xtra : BitVec 32) (dn : BitVec 5) (dfrac : BitVec 31) (s : State) :
    Host.Outcome State Fault Refusal := longMatch 55 xtra dn dfrac s

/-- LMATCH.56 (spec R99), PFX6 = 56. -/
def execLmatch56 (xtra : BitVec 32) (dn : BitVec 5) (dfrac : BitVec 31) (s : State) :
    Host.Outcome State Fault Refusal := longMatch 56 xtra dn dfrac s

/-- LMATCH.57 (spec R99), PFX6 = 57. -/
def execLmatch57 (xtra : BitVec 32) (dn : BitVec 5) (dfrac : BitVec 31) (s : State) :
    Host.Outcome State Fault Refusal := longMatch 57 xtra dn dfrac s

/-- LMATCH.58 (spec R99), PFX6 = 58. -/
def execLmatch58 (xtra : BitVec 32) (dn : BitVec 5) (dfrac : BitVec 31) (s : State) :
    Host.Outcome State Fault Refusal := longMatch 58 xtra dn dfrac s

/-- LMATCH.59 (spec R99), PFX6 = 59. -/
def execLmatch59 (xtra : BitVec 32) (dn : BitVec 5) (dfrac : BitVec 31) (s : State) :
    Host.Outcome State Fault Refusal := longMatch 59 xtra dn dfrac s

/-- LMATCH.60 (spec R99), PFX6 = 60. -/
def execLmatch60 (xtra : BitVec 32) (dn : BitVec 5) (dfrac : BitVec 31) (s : State) :
    Host.Outcome State Fault Refusal := longMatch 60 xtra dn dfrac s

/-- LMATCH.61 (spec R99), PFX6 = 61. -/
def execLmatch61 (xtra : BitVec 32) (dn : BitVec 5) (dfrac : BitVec 31) (s : State) :
    Host.Outcome State Fault Refusal := longMatch 61 xtra dn dfrac s

/-- LMATCH.62 (spec R99), PFX6 = 62. -/
def execLmatch62 (xtra : BitVec 32) (dn : BitVec 5) (dfrac : BitVec 31) (s : State) :
    Host.Outcome State Fault Refusal := longMatch 62 xtra dn dfrac s

/-- LMATCH.63 (spec R99), PFX6 = 63. -/
def execLmatch63 (xtra : BitVec 32) (dn : BitVec 5) (dfrac : BitVec 31) (s : State) :
    Host.Outcome State Fault Refusal := longMatch 63 xtra dn dfrac s

end Sys2Proof.Machine
end

