-- ==== Sys2Proof/Machine/ShortMatch.lean ====
section
/-! DEFINITION. The short class: SMATCH.0 to SMATCH.14, the plain symbol of entry 15, and SMATCHX (spec
42_symbols R91, R92). -/

namespace Sys2Proof.Machine

/-- SMATCH (spec R91): length from `SHORT_ROM[idx]` and XTRA, distance from DN and DFRAC, then CopyMatch. -/
def shortMatch (idx : BitVec 4) (xtra : BitVec 4) (dn : BitVec 5) (dfrac : BitVec 31) (s : State) :
    Host.Outcome State Fault Refusal :=
  copyMatch (codedLength (s.format.short idx) xtra.toNat) (distanceOf dn dfrac) s

/-- SMATCH.0 (spec R91), PFX4 = 0. -/
def execSmatch0 (xtra : BitVec 4) (dn : BitVec 5) (dfrac : BitVec 31) (s : State) :
    Host.Outcome State Fault Refusal := shortMatch 0 xtra dn dfrac s

/-- SMATCH.1 (spec R91), PFX4 = 1. -/
def execSmatch1 (xtra : BitVec 4) (dn : BitVec 5) (dfrac : BitVec 31) (s : State) :
    Host.Outcome State Fault Refusal := shortMatch 1 xtra dn dfrac s

/-- SMATCH.2 (spec R91), PFX4 = 2. -/
def execSmatch2 (xtra : BitVec 4) (dn : BitVec 5) (dfrac : BitVec 31) (s : State) :
    Host.Outcome State Fault Refusal := shortMatch 2 xtra dn dfrac s

/-- SMATCH.3 (spec R91), PFX4 = 3. -/
def execSmatch3 (xtra : BitVec 4) (dn : BitVec 5) (dfrac : BitVec 31) (s : State) :
    Host.Outcome State Fault Refusal := shortMatch 3 xtra dn dfrac s

/-- SMATCH.4 (spec R91), PFX4 = 4. -/
def execSmatch4 (xtra : BitVec 4) (dn : BitVec 5) (dfrac : BitVec 31) (s : State) :
    Host.Outcome State Fault Refusal := shortMatch 4 xtra dn dfrac s

/-- SMATCH.5 (spec R91), PFX4 = 5. -/
def execSmatch5 (xtra : BitVec 4) (dn : BitVec 5) (dfrac : BitVec 31) (s : State) :
    Host.Outcome State Fault Refusal := shortMatch 5 xtra dn dfrac s

/-- SMATCH.6 (spec R91), PFX4 = 6. -/
def execSmatch6 (xtra : BitVec 4) (dn : BitVec 5) (dfrac : BitVec 31) (s : State) :
    Host.Outcome State Fault Refusal := shortMatch 6 xtra dn dfrac s

/-- SMATCH.7 (spec R91), PFX4 = 7. -/
def execSmatch7 (xtra : BitVec 4) (dn : BitVec 5) (dfrac : BitVec 31) (s : State) :
    Host.Outcome State Fault Refusal := shortMatch 7 xtra dn dfrac s

/-- SMATCH.8 (spec R91), PFX4 = 8. -/
def execSmatch8 (xtra : BitVec 4) (dn : BitVec 5) (dfrac : BitVec 31) (s : State) :
    Host.Outcome State Fault Refusal := shortMatch 8 xtra dn dfrac s

/-- SMATCH.9 (spec R91), PFX4 = 9. -/
def execSmatch9 (xtra : BitVec 4) (dn : BitVec 5) (dfrac : BitVec 31) (s : State) :
    Host.Outcome State Fault Refusal := shortMatch 9 xtra dn dfrac s

/-- SMATCH.10 (spec R91), PFX4 = 10. -/
def execSmatch10 (xtra : BitVec 4) (dn : BitVec 5) (dfrac : BitVec 31) (s : State) :
    Host.Outcome State Fault Refusal := shortMatch 10 xtra dn dfrac s

/-- SMATCH.11 (spec R91), PFX4 = 11. -/
def execSmatch11 (xtra : BitVec 4) (dn : BitVec 5) (dfrac : BitVec 31) (s : State) :
    Host.Outcome State Fault Refusal := shortMatch 11 xtra dn dfrac s

/-- SMATCH.12 (spec R91), PFX4 = 12. -/
def execSmatch12 (xtra : BitVec 4) (dn : BitVec 5) (dfrac : BitVec 31) (s : State) :
    Host.Outcome State Fault Refusal := shortMatch 12 xtra dn dfrac s

/-- SMATCH.13 (spec R91), PFX4 = 13. -/
def execSmatch13 (xtra : BitVec 4) (dn : BitVec 5) (dfrac : BitVec 31) (s : State) :
    Host.Outcome State Fault Refusal := shortMatch 13 xtra dn dfrac s

/-- SMATCH.14 (spec R91), PFX4 = 14. -/
def execSmatch14 (xtra : BitVec 4) (dn : BitVec 5) (dfrac : BitVec 31) (s : State) :
    Host.Outcome State Fault Refusal := shortMatch 14 xtra dn dfrac s

/-- PFX4 = 15 where the ROM's entry 15 is no sentinel: SMATCH by R90, R91 (log entry 11). -/
def execSmatch15 (xtra : BitVec 4) (dn : BitVec 5) (dfrac : BitVec 31) (s : State) :
    Host.Outcome State Fault Refusal := shortMatch 15 xtra dn dfrac s

/-- SMATCHX (spec R92): the length is ExtendedRun's `17 + EXT4` (R93), whichever sentinel entry PFX4 names;
then as SMATCH. -/
def execSmatchx (_pfx : BitVec 4) (ext4 : BitVec 4) (dn : BitVec 5) (dfrac : BitVec 31) (s : State) :
    Host.Outcome State Fault Refusal :=
  copyMatch (extendedLength ext4) (distanceOf dn dfrac) s

end Sys2Proof.Machine
end

