-- ==== Sys2Proof/Machine/Dispatch.lean ====
section
/-! DEFINITION. One arm per instruction: the call of its meaning. -/

namespace Sys2Proof.Machine

def exec (i : Instr) (s : State) : Host.Outcome State Fault Refusal :=
  match i with
  | .smatch0 xtra dn dfrac => Sys2Proof.Machine.execSmatch0 xtra dn dfrac s
  | .smatch1 xtra dn dfrac => Sys2Proof.Machine.execSmatch1 xtra dn dfrac s
  | .smatch2 xtra dn dfrac => Sys2Proof.Machine.execSmatch2 xtra dn dfrac s
  | .smatch3 xtra dn dfrac => Sys2Proof.Machine.execSmatch3 xtra dn dfrac s
  | .smatch4 xtra dn dfrac => Sys2Proof.Machine.execSmatch4 xtra dn dfrac s
  | .smatch5 xtra dn dfrac => Sys2Proof.Machine.execSmatch5 xtra dn dfrac s
  | .smatch6 xtra dn dfrac => Sys2Proof.Machine.execSmatch6 xtra dn dfrac s
  | .smatch7 xtra dn dfrac => Sys2Proof.Machine.execSmatch7 xtra dn dfrac s
  | .smatch8 xtra dn dfrac => Sys2Proof.Machine.execSmatch8 xtra dn dfrac s
  | .smatch9 xtra dn dfrac => Sys2Proof.Machine.execSmatch9 xtra dn dfrac s
  | .smatch10 xtra dn dfrac => Sys2Proof.Machine.execSmatch10 xtra dn dfrac s
  | .smatch11 xtra dn dfrac => Sys2Proof.Machine.execSmatch11 xtra dn dfrac s
  | .smatch12 xtra dn dfrac => Sys2Proof.Machine.execSmatch12 xtra dn dfrac s
  | .smatch13 xtra dn dfrac => Sys2Proof.Machine.execSmatch13 xtra dn dfrac s
  | .smatch14 xtra dn dfrac => Sys2Proof.Machine.execSmatch14 xtra dn dfrac s
  | .smatch15 xtra dn dfrac => Sys2Proof.Machine.execSmatch15 xtra dn dfrac s
  | .smatchx pfx ext4 dn dfrac => Sys2Proof.Machine.execSmatchx pfx ext4 dn dfrac s
  | .litrun0 xtra => Sys2Proof.Machine.execLitrun0 xtra s
  | .litrun1 xtra => Sys2Proof.Machine.execLitrun1 xtra s
  | .litrun2 xtra => Sys2Proof.Machine.execLitrun2 xtra s
  | .litrun3 xtra => Sys2Proof.Machine.execLitrun3 xtra s
  | .litrun4 xtra => Sys2Proof.Machine.execLitrun4 xtra s
  | .litrun5 xtra => Sys2Proof.Machine.execLitrun5 xtra s
  | .litrun6 xtra => Sys2Proof.Machine.execLitrun6 xtra s
  | .litrun7 xtra => Sys2Proof.Machine.execLitrun7 xtra s
  | .litrun8 xtra => Sys2Proof.Machine.execLitrun8 xtra s
  | .litrun9 xtra => Sys2Proof.Machine.execLitrun9 xtra s
  | .litrun10 xtra => Sys2Proof.Machine.execLitrun10 xtra s
  | .litrun11 xtra => Sys2Proof.Machine.execLitrun11 xtra s
  | .litrun12 xtra => Sys2Proof.Machine.execLitrun12 xtra s
  | .litrun13 xtra => Sys2Proof.Machine.execLitrun13 xtra s
  | .litrun14 xtra => Sys2Proof.Machine.execLitrun14 xtra s
  | .litrun15 xtra => Sys2Proof.Machine.execLitrun15 xtra s
  | .litrun16 xtra => Sys2Proof.Machine.execLitrun16 xtra s
  | .litrun17 xtra => Sys2Proof.Machine.execLitrun17 xtra s
  | .litrun18 xtra => Sys2Proof.Machine.execLitrun18 xtra s
  | .litrun19 xtra => Sys2Proof.Machine.execLitrun19 xtra s
  | .litrun20 xtra => Sys2Proof.Machine.execLitrun20 xtra s
  | .litrun21 xtra => Sys2Proof.Machine.execLitrun21 xtra s
  | .litrun22 xtra => Sys2Proof.Machine.execLitrun22 xtra s
  | .litrun23 xtra => Sys2Proof.Machine.execLitrun23 xtra s
  | .litrun24 xtra => Sys2Proof.Machine.execLitrun24 xtra s
  | .litrun25 xtra => Sys2Proof.Machine.execLitrun25 xtra s
  | .litrun26 xtra => Sys2Proof.Machine.execLitrun26 xtra s
  | .litrun27 xtra => Sys2Proof.Machine.execLitrun27 xtra s
  | .litrun28 xtra => Sys2Proof.Machine.execLitrun28 xtra s
  | .litrun29 xtra => Sys2Proof.Machine.execLitrun29 xtra s
  | .litrun30 xtra => Sys2Proof.Machine.execLitrun30 xtra s
  | .litrun31 xtra => Sys2Proof.Machine.execLitrun31 xtra s
  | .lmatch32 xtra dn dfrac => Sys2Proof.Machine.execLmatch32 xtra dn dfrac s
  | .lmatch33 xtra dn dfrac => Sys2Proof.Machine.execLmatch33 xtra dn dfrac s
  | .lmatch34 xtra dn dfrac => Sys2Proof.Machine.execLmatch34 xtra dn dfrac s
  | .lmatch35 xtra dn dfrac => Sys2Proof.Machine.execLmatch35 xtra dn dfrac s
  | .lmatch36 xtra dn dfrac => Sys2Proof.Machine.execLmatch36 xtra dn dfrac s
  | .lmatch37 xtra dn dfrac => Sys2Proof.Machine.execLmatch37 xtra dn dfrac s
  | .lmatch38 xtra dn dfrac => Sys2Proof.Machine.execLmatch38 xtra dn dfrac s
  | .lmatch39 xtra dn dfrac => Sys2Proof.Machine.execLmatch39 xtra dn dfrac s
  | .lmatch40 xtra dn dfrac => Sys2Proof.Machine.execLmatch40 xtra dn dfrac s
  | .lmatch41 xtra dn dfrac => Sys2Proof.Machine.execLmatch41 xtra dn dfrac s
  | .lmatch42 xtra dn dfrac => Sys2Proof.Machine.execLmatch42 xtra dn dfrac s
  | .lmatch43 xtra dn dfrac => Sys2Proof.Machine.execLmatch43 xtra dn dfrac s
  | .lmatch44 xtra dn dfrac => Sys2Proof.Machine.execLmatch44 xtra dn dfrac s
  | .lmatch45 xtra dn dfrac => Sys2Proof.Machine.execLmatch45 xtra dn dfrac s
  | .lmatch46 xtra dn dfrac => Sys2Proof.Machine.execLmatch46 xtra dn dfrac s
  | .lmatch47 xtra dn dfrac => Sys2Proof.Machine.execLmatch47 xtra dn dfrac s
  | .lmatch48 xtra dn dfrac => Sys2Proof.Machine.execLmatch48 xtra dn dfrac s
  | .lmatch49 xtra dn dfrac => Sys2Proof.Machine.execLmatch49 xtra dn dfrac s
  | .lmatch50 xtra dn dfrac => Sys2Proof.Machine.execLmatch50 xtra dn dfrac s
  | .lmatch51 xtra dn dfrac => Sys2Proof.Machine.execLmatch51 xtra dn dfrac s
  | .lmatch52 xtra dn dfrac => Sys2Proof.Machine.execLmatch52 xtra dn dfrac s
  | .lmatch53 xtra dn dfrac => Sys2Proof.Machine.execLmatch53 xtra dn dfrac s
  | .lmatch54 xtra dn dfrac => Sys2Proof.Machine.execLmatch54 xtra dn dfrac s
  | .lmatch55 xtra dn dfrac => Sys2Proof.Machine.execLmatch55 xtra dn dfrac s
  | .lmatch56 xtra dn dfrac => Sys2Proof.Machine.execLmatch56 xtra dn dfrac s
  | .lmatch57 xtra dn dfrac => Sys2Proof.Machine.execLmatch57 xtra dn dfrac s
  | .lmatch58 xtra dn dfrac => Sys2Proof.Machine.execLmatch58 xtra dn dfrac s
  | .lmatch59 xtra dn dfrac => Sys2Proof.Machine.execLmatch59 xtra dn dfrac s
  | .lmatch60 xtra dn dfrac => Sys2Proof.Machine.execLmatch60 xtra dn dfrac s
  | .lmatch61 xtra dn dfrac => Sys2Proof.Machine.execLmatch61 xtra dn dfrac s
  | .lmatch62 xtra dn dfrac => Sys2Proof.Machine.execLmatch62 xtra dn dfrac s
  | .lmatch63 xtra dn dfrac => Sys2Proof.Machine.execLmatch63 xtra dn dfrac s
  | .cont v => Sys2Proof.Machine.execCont v s
  | .hdr szexp szfrac inwin outwin trail => Sys2Proof.Machine.execHdr szexp szfrac inwin outwin trail s
  | .init => Sys2Proof.Machine.execInit s
  | .decode => Sys2Proof.Machine.execDecode s

end Sys2Proof.Machine
end

