-- ==== Sys2Proof/Machine/Fetch.lean ====
section
/-! DEFINITION. What the next step runs: the command issued, the header of an INIT, or, in a DECODE, the loop's
tests (spec R78) and then the instruction at the input cursor (R12, R89, R90, R111). -/

namespace Sys2Proof.Machine

/-- What a step does: run an instruction on a state, or stop in a state without running one. -/
inductive Fetched where
  | run (i : Instr) (s : State)
  | stop (s : State)
deriving DecidableEq, Repr

/-- Read the header at the working copy's cursor in header mode (spec R71 to R74). -/
def fetchHeader (s : State) : Fetched :=
  match runParse s.inMem (headerEnv s) headerParse s.work with
  | .ok (i, w) => .run i (setWork w s)
  | .error st => .stop (raiseStatus st s)

/-- Read a symbol's fields at the working copy's cursor (spec R90, R94); `FSM` follows R100. -/
def fetchSymbol (s : State) : Fetched :=
  match runParse s.inMem (decodeEnv s) (symbolParse s.format) s.work with
  | .ok (i, w) => .run i { setWork w s with fsm := fsmRun s.fsm (readEvents i) }
  | .error st => .stop (raiseStatus st s)

/-- Read the continuation field the working copy stands on (spec R110). -/
def fetchCont (s : State) : Fetched :=
  match readCont s.inMem (decodeEnv s) s.work with
  | .ok i => .run i s
  | .error st => .stop (raiseStatus st s)

/-- One turn of the decode loop (spec R78): the tests, then a symbol step begins; where its first bit lies
beyond a boundary, CONT comes first (R111, log entry 3). -/
def fetchTurn (s : State) : Fetched :=
  match loopTest s with
  | some st => .stop (stopLoop st s)
  | none =>
    if onBoundary (decodeEnv s) (copyWork s) then fetchCont (beginSymbol s) else fetchSymbol (beginSymbol s)

/-- What the next step runs. -/
def fetch (s : State) : Fetched :=
  match s.activity with
  | .idle =>
    match decodeCommand s.cmd with
    | some i => .run i { s with cmd := 0 }
    | none => .stop { s with cmd := 0 }
  | .init => fetchHeader s
  | .decode => fetchTurn s
  | .symbol => fetchSymbol s

/-! ### Placing an instruction -/

/-- Store bytes from an offset up. -/
def storeBytes (m : Memory) : Nat → List Byte → Memory
  | _, [] => m
  | a, b :: bs => storeBytes (m.write a b) (a + 1) bs

/-- A session with unconstrained windows whose DECODE stands at the top of a turn, its cursor at position 0
and every gate open: what a host's INIT and DECODE leave before a first symbol (log entry 1). -/
def placeSession (s : State) : State :=
  { s with
    cmd := 0
    phase := .active
    fsm := .readSymbol
    activity := .decode
    work := Work.none
    totalLen := BitVec.ofNat 64 (2 ^ 62)
    hdrOff := 0
    dataStart := 0
    decompSize := BitVec.ofNat 64 all1
    inMask := BitVec.ofNat 64 all1
    outMask := BitVec.ofNat 64 all1
    invMaskIn := BitVec.ofNat 64 all1
    invMaskOut := BitVec.ofNat 64 all1
    lenBytes := 0
    chunked := false
    inByte := 0
    inBitoff := 0
    outCur := if s.outCur = BitVec.ofNat 64 all1 then 0 else s.outCur
    reqIn := BitVec.ofNat 64 (2 ^ 62)
    nextBnd := BitVec.ofNat 64 all1
    availIn := BitVec.ofNat 64 (2 ^ 62)
    availOut := BitVec.ofNat 64 all1
    nbits := 0 }

/-- An INIT past its fit check, for a header at position 0 of a frame of 2^62 bytes. -/
def placeHeader (s : State) : State :=
  { s with
    cmd := 0
    phase := .noSession
    fsm := .readSymbol
    activity := .init
    work := ⟨0, 0, 0, 0⟩
    arg1 := BitVec.ofNat 64 (2 ^ 62)
    arg2 := 0
    arg3 := 20 }

/-- The state whose next step fetches a table word (log entries 1, 13): a symbol at the cursor of a session, a
header at the cursor of an INIT, or a command in `CMD`. -/
def placeWord (s : State) (nbits w : Nat) : State :=
  let mem := storeBytes s.inMem 0 (tableBytes nbits w)
  match tableSlot nbits with
  | .command => { s with activity := .idle, work := Work.none, cmd := BitVec.ofNat 2 (w % 2 ^ nbits) }
  | .header => { placeHeader s with inMem := mem }
  | _ => { placeSession s with inMem := mem }

end Sys2Proof.Machine
end

