-- ==== Sys2Proof/Machine/Step.lean ====
section
/-! DEFINITION. One step: fetch, then run (spec 00_scope R9, 40_commands R78). -/

namespace Sys2Proof.Machine

/-- One step of the machine. With no command issued the engine is idle and keeps its state (spec R138). -/
def step (s : State) : Host.Outcome State Fault Refusal :=
  match fetch s with
  | .run i s' => exec i s'
  | .stop s' => .next s'

/-- `s` with a word of spec/opcode_table.json where the next step fetches its instruction (log entries 1, 13). -/
def State.withFetchWord (s : State) (nbits w : Nat) : State := placeWord s nbits w

end Sys2Proof.Machine
end

