-- ==== Sys2Proof/Laws/PerInstr.lean ====
section
/-! SUPPORT. Statements made per instruction: how many bits a well-formed instruction's code has with the default ROMs
(spec 30_encoding R50, R60; 42_symbols R91, R92, R95, R99). -/

namespace Sys2Proof

/-- The length of a field is its width. -/
@[simp] theorem natBits_length (n v : Nat) : (natBits n v).length = n := by
  induction n generalizing v with
  | zero => rfl
  | succ n ih => simp [natBits, ih]

end Sys2Proof

namespace Sys2Proof.Laws

/-- The least and the greatest number of bits of a format with the default ROMs and `LEN_BYTES` at most 8 (spec R60). -/
def CodeLength.bounds : View → Nat × Nat
  | .short .. => (10, 45)
  | .extended .. => (14, 45)
  | .literal .. => (7, 23)
  | .long .. => (15, 75)
  | .cont _ => (0, 64)
  | .header .. => (18, 155)
  | .init => (2, 2)
  | .decode => (2, 2)

/-- The bits of a format lie within its bounds. -/
def CodeLength.Within (v : View) : Prop :=
  ∀ lb : BitVec 4, lb.toNat ≤ 8 → v.wf (defaultFormat lb) = true →
    (CodeLength.bounds v).1 ≤ (v.encode (defaultFormat lb)).length ∧
      (v.encode (defaultFormat lb)).length ≤ (CodeLength.bounds v).2

/-- The code of a well-formed instruction has a length within the bounds of its format (spec R60). -/
def CodeLength.Statement (i : Instr) : Prop := CodeLength.Within i.view

/-- The extra bits of the default `SHORT_ROM` (spec R53). -/
theorem CodeLength.shortRom_extraBits : ∀ idx : BitVec 4, (defaultShortRom.get idx.toFin).extraBits.toNat ≤ 4 := by
  decide

/-- The extra bits of the literal entries of the default `LONG_ROM` (spec R54). -/
theorem CodeLength.longRom_literal :
    ∀ idx : BitVec 6, idx.toNat < 32 → (defaultLongRom.get idx.toFin).extraBits.toNat ≤ 16 := by decide

/-- The extra bits of the match entries of the default `LONG_ROM` (spec R54). -/
theorem CodeLength.longRom_match :
    ∀ idx : BitVec 6, 32 ≤ idx.toNat → 3 ≤ (defaultLongRom.get idx.toFin).extraBits.toNat ∧
      (defaultLongRom.get idx.toFin).extraBits.toNat ≤ 32 := by decide

theorem CodeLength.short (idx x : BitVec 4) (dn : BitVec 5) (df : BitVec 31) : CodeLength.Within (.short idx x dn df) := by
  intro lb _ _
  have h := CodeLength.shortRom_extraBits idx
  have := dn.isLt
  simp [CodeLength.bounds, View.encode, encodeDistance, Format.short, defaultFormat]; omega

theorem CodeLength.extended (idx x : BitVec 4) (dn : BitVec 5) (df : BitVec 31) :
    CodeLength.Within (.extended idx x dn df) := by
  intro lb _ _
  have := dn.isLt
  simp [CodeLength.bounds, View.encode, encodeDistance]; omega

theorem CodeLength.literal (idx : BitVec 6) (x : BitVec 32) : CodeLength.Within (.literal idx x) := by
  intro lb _ hw
  have h := CodeLength.longRom_literal idx
  simp [View.wf, Config.longLitN] at hw
  have h' := h (of_decide_eq_true hw.1)
  simp [CodeLength.bounds, View.encode, Format.long, defaultFormat]; omega

theorem CodeLength.long (idx : BitVec 6) (x : BitVec 32) (dn : BitVec 5) (df : BitVec 31) :
    CodeLength.Within (.long idx x dn df) := by
  intro lb _ hw
  have h := CodeLength.longRom_match idx
  have := dn.isLt
  simp [View.wf, Config.longLitN] at hw
  have h' := h (of_decide_eq_true hw.1.1)
  simp [CodeLength.bounds, View.encode, encodeDistance, Format.long, defaultFormat]; omega

theorem CodeLength.header (e : BitVec 6) (fr : BitVec 63) (i o : BitVec 6) (t : Option Trail) :
    CodeLength.Within (.header e fr i o t) := by
  intro lb _ _
  have := e.isLt
  cases t with
  | none => simp [CodeLength.bounds, View.encode, encodeTrail]; omega
  | some t =>
    have := t.lenb.isLt
    simp [CodeLength.bounds, View.encode, encodeTrail]; omega

theorem CodeLength.smatch0 (x : BitVec 4) (dn : BitVec 5) (df : BitVec 31) : CodeLength.Statement (.smatch0 x dn df) :=
  CodeLength.short 0 x dn df

theorem CodeLength.smatch1 (x : BitVec 4) (dn : BitVec 5) (df : BitVec 31) : CodeLength.Statement (.smatch1 x dn df) :=
  CodeLength.short 1 x dn df

theorem CodeLength.smatch2 (x : BitVec 4) (dn : BitVec 5) (df : BitVec 31) : CodeLength.Statement (.smatch2 x dn df) :=
  CodeLength.short 2 x dn df

theorem CodeLength.smatch3 (x : BitVec 4) (dn : BitVec 5) (df : BitVec 31) : CodeLength.Statement (.smatch3 x dn df) :=
  CodeLength.short 3 x dn df

theorem CodeLength.smatch4 (x : BitVec 4) (dn : BitVec 5) (df : BitVec 31) : CodeLength.Statement (.smatch4 x dn df) :=
  CodeLength.short 4 x dn df

theorem CodeLength.smatch5 (x : BitVec 4) (dn : BitVec 5) (df : BitVec 31) : CodeLength.Statement (.smatch5 x dn df) :=
  CodeLength.short 5 x dn df

theorem CodeLength.smatch6 (x : BitVec 4) (dn : BitVec 5) (df : BitVec 31) : CodeLength.Statement (.smatch6 x dn df) :=
  CodeLength.short 6 x dn df

theorem CodeLength.smatch7 (x : BitVec 4) (dn : BitVec 5) (df : BitVec 31) : CodeLength.Statement (.smatch7 x dn df) :=
  CodeLength.short 7 x dn df

theorem CodeLength.smatch8 (x : BitVec 4) (dn : BitVec 5) (df : BitVec 31) : CodeLength.Statement (.smatch8 x dn df) :=
  CodeLength.short 8 x dn df

theorem CodeLength.smatch9 (x : BitVec 4) (dn : BitVec 5) (df : BitVec 31) : CodeLength.Statement (.smatch9 x dn df) :=
  CodeLength.short 9 x dn df

theorem CodeLength.smatch10 (x : BitVec 4) (dn : BitVec 5) (df : BitVec 31) : CodeLength.Statement (.smatch10 x dn df) :=
  CodeLength.short 10 x dn df

theorem CodeLength.smatch11 (x : BitVec 4) (dn : BitVec 5) (df : BitVec 31) : CodeLength.Statement (.smatch11 x dn df) :=
  CodeLength.short 11 x dn df

theorem CodeLength.smatch12 (x : BitVec 4) (dn : BitVec 5) (df : BitVec 31) : CodeLength.Statement (.smatch12 x dn df) :=
  CodeLength.short 12 x dn df

theorem CodeLength.smatch13 (x : BitVec 4) (dn : BitVec 5) (df : BitVec 31) : CodeLength.Statement (.smatch13 x dn df) :=
  CodeLength.short 13 x dn df

theorem CodeLength.smatch14 (x : BitVec 4) (dn : BitVec 5) (df : BitVec 31) : CodeLength.Statement (.smatch14 x dn df) :=
  CodeLength.short 14 x dn df

theorem CodeLength.smatch15 (x : BitVec 4) (dn : BitVec 5) (df : BitVec 31) : CodeLength.Statement (.smatch15 x dn df) :=
  CodeLength.short 15 x dn df

theorem CodeLength.smatchx (p x : BitVec 4) (dn : BitVec 5) (df : BitVec 31) : CodeLength.Statement (.smatchx p x dn df) :=
  CodeLength.extended p x dn df

theorem CodeLength.litrun0 (x : BitVec 32) : CodeLength.Statement (.litrun0 x) := CodeLength.literal 0 x

theorem CodeLength.litrun1 (x : BitVec 32) : CodeLength.Statement (.litrun1 x) := CodeLength.literal 1 x

theorem CodeLength.litrun2 (x : BitVec 32) : CodeLength.Statement (.litrun2 x) := CodeLength.literal 2 x

theorem CodeLength.litrun3 (x : BitVec 32) : CodeLength.Statement (.litrun3 x) := CodeLength.literal 3 x

theorem CodeLength.litrun4 (x : BitVec 32) : CodeLength.Statement (.litrun4 x) := CodeLength.literal 4 x

theorem CodeLength.litrun5 (x : BitVec 32) : CodeLength.Statement (.litrun5 x) := CodeLength.literal 5 x

theorem CodeLength.litrun6 (x : BitVec 32) : CodeLength.Statement (.litrun6 x) := CodeLength.literal 6 x

theorem CodeLength.litrun7 (x : BitVec 32) : CodeLength.Statement (.litrun7 x) := CodeLength.literal 7 x

theorem CodeLength.litrun8 (x : BitVec 32) : CodeLength.Statement (.litrun8 x) := CodeLength.literal 8 x

theorem CodeLength.litrun9 (x : BitVec 32) : CodeLength.Statement (.litrun9 x) := CodeLength.literal 9 x

theorem CodeLength.litrun10 (x : BitVec 32) : CodeLength.Statement (.litrun10 x) := CodeLength.literal 10 x

theorem CodeLength.litrun11 (x : BitVec 32) : CodeLength.Statement (.litrun11 x) := CodeLength.literal 11 x

theorem CodeLength.litrun12 (x : BitVec 32) : CodeLength.Statement (.litrun12 x) := CodeLength.literal 12 x

theorem CodeLength.litrun13 (x : BitVec 32) : CodeLength.Statement (.litrun13 x) := CodeLength.literal 13 x

theorem CodeLength.litrun14 (x : BitVec 32) : CodeLength.Statement (.litrun14 x) := CodeLength.literal 14 x

theorem CodeLength.litrun15 (x : BitVec 32) : CodeLength.Statement (.litrun15 x) := CodeLength.literal 15 x

theorem CodeLength.litrun16 (x : BitVec 32) : CodeLength.Statement (.litrun16 x) := CodeLength.literal 16 x

theorem CodeLength.litrun17 (x : BitVec 32) : CodeLength.Statement (.litrun17 x) := CodeLength.literal 17 x

theorem CodeLength.litrun18 (x : BitVec 32) : CodeLength.Statement (.litrun18 x) := CodeLength.literal 18 x

theorem CodeLength.litrun19 (x : BitVec 32) : CodeLength.Statement (.litrun19 x) := CodeLength.literal 19 x

theorem CodeLength.litrun20 (x : BitVec 32) : CodeLength.Statement (.litrun20 x) := CodeLength.literal 20 x

theorem CodeLength.litrun21 (x : BitVec 32) : CodeLength.Statement (.litrun21 x) := CodeLength.literal 21 x

theorem CodeLength.litrun22 (x : BitVec 32) : CodeLength.Statement (.litrun22 x) := CodeLength.literal 22 x

theorem CodeLength.litrun23 (x : BitVec 32) : CodeLength.Statement (.litrun23 x) := CodeLength.literal 23 x

theorem CodeLength.litrun24 (x : BitVec 32) : CodeLength.Statement (.litrun24 x) := CodeLength.literal 24 x

theorem CodeLength.litrun25 (x : BitVec 32) : CodeLength.Statement (.litrun25 x) := CodeLength.literal 25 x

theorem CodeLength.litrun26 (x : BitVec 32) : CodeLength.Statement (.litrun26 x) := CodeLength.literal 26 x

theorem CodeLength.litrun27 (x : BitVec 32) : CodeLength.Statement (.litrun27 x) := CodeLength.literal 27 x

theorem CodeLength.litrun28 (x : BitVec 32) : CodeLength.Statement (.litrun28 x) := CodeLength.literal 28 x

theorem CodeLength.litrun29 (x : BitVec 32) : CodeLength.Statement (.litrun29 x) := CodeLength.literal 29 x

theorem CodeLength.litrun30 (x : BitVec 32) : CodeLength.Statement (.litrun30 x) := CodeLength.literal 30 x

theorem CodeLength.litrun31 (x : BitVec 32) : CodeLength.Statement (.litrun31 x) := CodeLength.literal 31 x

theorem CodeLength.lmatch32 (x : BitVec 32) (dn : BitVec 5) (df : BitVec 31) : CodeLength.Statement (.lmatch32 x dn df) :=
  CodeLength.long 32 x dn df

theorem CodeLength.lmatch33 (x : BitVec 32) (dn : BitVec 5) (df : BitVec 31) : CodeLength.Statement (.lmatch33 x dn df) :=
  CodeLength.long 33 x dn df

theorem CodeLength.lmatch34 (x : BitVec 32) (dn : BitVec 5) (df : BitVec 31) : CodeLength.Statement (.lmatch34 x dn df) :=
  CodeLength.long 34 x dn df

theorem CodeLength.lmatch35 (x : BitVec 32) (dn : BitVec 5) (df : BitVec 31) : CodeLength.Statement (.lmatch35 x dn df) :=
  CodeLength.long 35 x dn df

theorem CodeLength.lmatch36 (x : BitVec 32) (dn : BitVec 5) (df : BitVec 31) : CodeLength.Statement (.lmatch36 x dn df) :=
  CodeLength.long 36 x dn df

theorem CodeLength.lmatch37 (x : BitVec 32) (dn : BitVec 5) (df : BitVec 31) : CodeLength.Statement (.lmatch37 x dn df) :=
  CodeLength.long 37 x dn df

theorem CodeLength.lmatch38 (x : BitVec 32) (dn : BitVec 5) (df : BitVec 31) : CodeLength.Statement (.lmatch38 x dn df) :=
  CodeLength.long 38 x dn df

theorem CodeLength.lmatch39 (x : BitVec 32) (dn : BitVec 5) (df : BitVec 31) : CodeLength.Statement (.lmatch39 x dn df) :=
  CodeLength.long 39 x dn df

theorem CodeLength.lmatch40 (x : BitVec 32) (dn : BitVec 5) (df : BitVec 31) : CodeLength.Statement (.lmatch40 x dn df) :=
  CodeLength.long 40 x dn df

theorem CodeLength.lmatch41 (x : BitVec 32) (dn : BitVec 5) (df : BitVec 31) : CodeLength.Statement (.lmatch41 x dn df) :=
  CodeLength.long 41 x dn df

theorem CodeLength.lmatch42 (x : BitVec 32) (dn : BitVec 5) (df : BitVec 31) : CodeLength.Statement (.lmatch42 x dn df) :=
  CodeLength.long 42 x dn df

theorem CodeLength.lmatch43 (x : BitVec 32) (dn : BitVec 5) (df : BitVec 31) : CodeLength.Statement (.lmatch43 x dn df) :=
  CodeLength.long 43 x dn df

theorem CodeLength.lmatch44 (x : BitVec 32) (dn : BitVec 5) (df : BitVec 31) : CodeLength.Statement (.lmatch44 x dn df) :=
  CodeLength.long 44 x dn df

theorem CodeLength.lmatch45 (x : BitVec 32) (dn : BitVec 5) (df : BitVec 31) : CodeLength.Statement (.lmatch45 x dn df) :=
  CodeLength.long 45 x dn df

theorem CodeLength.lmatch46 (x : BitVec 32) (dn : BitVec 5) (df : BitVec 31) : CodeLength.Statement (.lmatch46 x dn df) :=
  CodeLength.long 46 x dn df

theorem CodeLength.lmatch47 (x : BitVec 32) (dn : BitVec 5) (df : BitVec 31) : CodeLength.Statement (.lmatch47 x dn df) :=
  CodeLength.long 47 x dn df

theorem CodeLength.lmatch48 (x : BitVec 32) (dn : BitVec 5) (df : BitVec 31) : CodeLength.Statement (.lmatch48 x dn df) :=
  CodeLength.long 48 x dn df

theorem CodeLength.lmatch49 (x : BitVec 32) (dn : BitVec 5) (df : BitVec 31) : CodeLength.Statement (.lmatch49 x dn df) :=
  CodeLength.long 49 x dn df

theorem CodeLength.lmatch50 (x : BitVec 32) (dn : BitVec 5) (df : BitVec 31) : CodeLength.Statement (.lmatch50 x dn df) :=
  CodeLength.long 50 x dn df

theorem CodeLength.lmatch51 (x : BitVec 32) (dn : BitVec 5) (df : BitVec 31) : CodeLength.Statement (.lmatch51 x dn df) :=
  CodeLength.long 51 x dn df

theorem CodeLength.lmatch52 (x : BitVec 32) (dn : BitVec 5) (df : BitVec 31) : CodeLength.Statement (.lmatch52 x dn df) :=
  CodeLength.long 52 x dn df

theorem CodeLength.lmatch53 (x : BitVec 32) (dn : BitVec 5) (df : BitVec 31) : CodeLength.Statement (.lmatch53 x dn df) :=
  CodeLength.long 53 x dn df

theorem CodeLength.lmatch54 (x : BitVec 32) (dn : BitVec 5) (df : BitVec 31) : CodeLength.Statement (.lmatch54 x dn df) :=
  CodeLength.long 54 x dn df

theorem CodeLength.lmatch55 (x : BitVec 32) (dn : BitVec 5) (df : BitVec 31) : CodeLength.Statement (.lmatch55 x dn df) :=
  CodeLength.long 55 x dn df

theorem CodeLength.lmatch56 (x : BitVec 32) (dn : BitVec 5) (df : BitVec 31) : CodeLength.Statement (.lmatch56 x dn df) :=
  CodeLength.long 56 x dn df

theorem CodeLength.lmatch57 (x : BitVec 32) (dn : BitVec 5) (df : BitVec 31) : CodeLength.Statement (.lmatch57 x dn df) :=
  CodeLength.long 57 x dn df

theorem CodeLength.lmatch58 (x : BitVec 32) (dn : BitVec 5) (df : BitVec 31) : CodeLength.Statement (.lmatch58 x dn df) :=
  CodeLength.long 58 x dn df

theorem CodeLength.lmatch59 (x : BitVec 32) (dn : BitVec 5) (df : BitVec 31) : CodeLength.Statement (.lmatch59 x dn df) :=
  CodeLength.long 59 x dn df

theorem CodeLength.lmatch60 (x : BitVec 32) (dn : BitVec 5) (df : BitVec 31) : CodeLength.Statement (.lmatch60 x dn df) :=
  CodeLength.long 60 x dn df

theorem CodeLength.lmatch61 (x : BitVec 32) (dn : BitVec 5) (df : BitVec 31) : CodeLength.Statement (.lmatch61 x dn df) :=
  CodeLength.long 61 x dn df

theorem CodeLength.lmatch62 (x : BitVec 32) (dn : BitVec 5) (df : BitVec 31) : CodeLength.Statement (.lmatch62 x dn df) :=
  CodeLength.long 62 x dn df

theorem CodeLength.lmatch63 (x : BitVec 32) (dn : BitVec 5) (df : BitVec 31) : CodeLength.Statement (.lmatch63 x dn df) :=
  CodeLength.long 63 x dn df

theorem CodeLength.cont (v : Word) : CodeLength.Statement (.cont v) := by
  intro lb h _
  simp [CodeLength.bounds, View.encode, Instr.view, defaultFormat]; omega

theorem CodeLength.hdr (e : BitVec 6) (fr : BitVec 63) (i o : BitVec 6) (t : Option Trail) :
    CodeLength.Statement (.hdr e fr i o t) := CodeLength.header e fr i o t

theorem CodeLength.init : CodeLength.Statement .init := fun _ _ _ => ⟨by simp [CodeLength.bounds, View.encode, Instr.view],
  by simp [CodeLength.bounds, View.encode, Instr.view]⟩

theorem CodeLength.decode : CodeLength.Statement .decode := fun _ _ _ => ⟨by simp [CodeLength.bounds, View.encode, Instr.view],
  by simp [CodeLength.bounds, View.encode, Instr.view]⟩

end Sys2Proof.Laws
end

