-- ==== Sys2Proof/Machine/Accumulator.lean ====
section
/-! DEFINITION. The reference refill policy of `ACC` and `NBITS` (spec 41_bitreader R87), a second way to read the logical
stream. `step` does not use it (spec R27: a model may keep `NBITS = 0`; log entry 15); it is here so that its
agreement with `take` can be stated. -/

namespace Sys2Proof.Machine

/-- The accumulator inside a command: `ACC`, `NBITS`, and the fetch position F as a working copy (its bit offset is
not 0 only while a partly used byte is to be fetched again). -/
structure Accum where
  acc : Nat
  nbits : Nat
  fetch : Work
deriving DecidableEq, Repr

/-- The accumulator emptied at a cursor: the partly used byte is to be fetched again (spec R87). -/
def accEmpty (w : Work) : Accum := ⟨0, 0, w⟩

/-- Load a byte at bit `NBITS`; F moves to the next byte (spec R87). -/
def accLoad (a : Accum) (b : Byte) (w : Work) : Accum :=
  { acc := a.acc + (b.toNat >>> w.bitOff) * 2 ^ a.nbits
    nbits := a.nbits + (8 - w.bitOff)
    fetch := { w with inByte := w.inByte + 1, bitOff := 0 } }

/-- A prefetch may load the byte at F: room in the accumulator, below `AVAIL_IN`, before the boundary (spec R87). -/
def accMayLoad (e : Env) (a : Accum) : Bool :=
  decide (a.nbits ≤ 56) && decide (a.fetch.inByte < e.avail) &&
    (!e.chunked || decide (a.fetch.inByte < a.fetch.nextBnd))

/-- Prefetch while it may, at most `fuel` bytes. -/
def accRefill (m : Memory) (e : Env) : Nat → Accum → Accum
  | 0, a => a
  | fuel + 1, a =>
    if accMayLoad e a then
      accRefill m e fuel (accLoad a (m.read (offsetOf a.fetch.inByte e.inMask)) a.fetch)
    else a

/-- Fetch on demand until `n` bits are held: the status is that of FetchByte at F, which may cross the boundary
(spec R87). -/
def accDemand (m : Memory) (e : Env) (n : Nat) : Nat → Accum → Except Status Accum
  | 0, a => .ok a
  | fuel + 1, a =>
    if n ≤ a.nbits then .ok a
    else
      match fetchByte m e a.fetch with
      | .error st => .error st
      | .ok (b, w) => accDemand m e n fuel (accLoad a b w)

/-- `take(n)` through the accumulator (spec R87). -/
def accTake (m : Memory) (e : Env) (n : Nat) (a : Accum) : Except Status (Nat × Accum) :=
  let a' := if a.nbits < Config.refillThreshold then accRefill m e 8 a else a
  match accDemand m e n n a' with
  | .error st => .error st
  | .ok b => .ok (b.acc % 2 ^ n, { b with acc := b.acc / 2 ^ n, nbits := b.nbits - n })

/-- A run of fields through the accumulator. -/
def accTakes (m : Memory) (e : Env) : List Nat → Accum → Except Status (List Nat)
  | [], _ => .ok []
  | n :: ns, a =>
    match accTake m e n a with
    | .error st => .error st
    | .ok (v, a') =>
      match accTakes m e ns a' with
      | .error st => .error st
      | .ok vs => .ok (v :: vs)

/-- The same run of fields by `take` (spec R83). -/
def takes (m : Memory) (e : Env) : List Nat → Work → Except Status (List Nat)
  | [], _ => .ok []
  | n :: ns, w =>
    match take m e n w with
    | .error st => .error st
    | .ok (v, w') =>
      match takes m e ns w' with
      | .error st => .error st
      | .ok vs => .ok (v :: vs)

end Sys2Proof.Machine
end

