-- ==== Sys2Proof/Machine/HostPort.lean ====
section
/-! DEFINITION. The host's side (spec 00_scope R9, 10_state R23, R24, 20_memory R30, R31, R42, 70_reset R140): the
accesses a host may make at a command boundary. They are not steps of the engine. -/

namespace Sys2Proof.Machine

/-- A command has been issued and has not returned (spec R42): the host may touch nothing. -/
def State.busy (s : State) : Bool := s.activity != .idle || s.cmd != 0

/-- The value of the register at an index of the interface (spec R23, R24); `CMD` reads as 0. -/
def regAt (index : Nat) (s : State) : Option Word :=
  match index with
  | 0 => some 0
  | 1 => some s.arg0
  | 2 => some s.arg1
  | 3 => some s.arg2
  | 4 => some s.arg3
  | 5 => some (s.status.code.zeroExtend 64)
  | 6 => some s.ret0
  | 7 => some s.outBase
  | 16 => some (s.phase.code.zeroExtend 64)
  | 17 => some s.totalLen
  | 18 => some s.hdrOff
  | 19 => some s.dataStart
  | 20 => some s.decompSize
  | 21 => some s.inMask
  | 22 => some s.outMask
  | 23 => some s.invMaskIn
  | 24 => some s.invMaskOut
  | 25 => some (s.lenBytes.zeroExtend 64)
  | 26 => some (if s.chunked then 1 else 0)
  | 27 => some s.inByte
  | 28 => some (s.inBitoff.zeroExtend 64)
  | 29 => some s.outCur
  | 30 => some s.reqIn
  | 31 => some s.nextBnd
  | 32 => some (BitVec.ofNat 64 (reqOut s))
  | 33 => some s.inBase
  | _ => none

/-- Without a session the session registers (indices 17 to 33) read as unspecified values (spec R24). -/
def readsUnspecified (index : Nat) (s : State) : Bool := decide (17 ≤ index) && s.phase == .noSession

/-- The host reads a register (spec R23, R24). An unspecified value is a free value (log entry 8). -/
def hostRead (index : Nat) (s : State) : Host.Outcome (State × Word) Fault Refusal :=
  if s.busy then .refused .commandInProgress
  else
    match regAt index s with
    | none => .fault (.noSuchRegister index)
    | some v =>
      if readsUnspecified index s then
        .next ({ s with freeCount := s.freeCount + 1 }, Config.freeReg s.freeCount)
      else .next (s, v)

/-- A write of `CMD` (spec R23): the low two bits; 1 and 2 issue a command, 0 and 3 are ignored. -/
def issueCommand (value : Nat) (s : State) : State :=
  match decodeCommand (BitVec.ofNat 2 value) with
  | some _ => { s with cmd := BitVec.ofNat 2 value }
  | none => s

/-- The host writes a register (spec R23): a value wider than the register keeps its low bits. A register the
host may only read refuses (log entry 9). -/
def hostWrite (index value : Nat) (s : State) : Host.Outcome State Fault Refusal :=
  if s.busy then .refused .commandInProgress
  else
    match index with
    | 0 => .next (issueCommand value s)
    | 1 => .next { s with arg0 := BitVec.ofNat 64 value }
    | 2 => .next { s with arg1 := BitVec.ofNat 64 value }
    | 3 => .next { s with arg2 := BitVec.ofNat 64 value }
    | 4 => .next { s with arg3 := BitVec.ofNat 64 value }
    | 7 => .next { s with outBase := BitVec.ofNat 64 value }
    | _ =>
      match regAt index s with
      | some _ => .refused (.readOnlyRegister index)
      | none => .fault (.noSuchRegister index)

/-- The host writes a byte of `IN` (spec R30, R42). -/
def hostStore (offset : Word) (b : Byte) (s : State) : Host.Outcome State Fault Refusal :=
  if s.busy then .refused .commandInProgress
  else .next { s with inMem := s.inMem.write offset.toNat b }

/-- The host reads a byte of `OUT` (spec R31, R42). It has no write of `OUT` (R31). -/
def hostFetch (offset : Word) (s : State) : Host.Outcome Byte Fault Refusal :=
  if s.busy then .refused .commandInProgress else .next (s.outMem.read offset.toNat)

/-- The RESET event (spec R140, R141), between commands (R142): the registers as after power-on, the memories and
the ROMs as they are (log entry 18). -/
def hostReset (s : State) : Host.Outcome State Fault Refusal :=
  if s.busy then .refused .commandInProgress
  else .next { State.reset with
    inMem := s.inMem
    outMem := s.outMem
    shortRom := s.shortRom
    longRom := s.longRom
    freeCount := s.freeCount }

end Sys2Proof.Machine
end

