-- ==== Sys2Proof/Safety.lean ====
section
/-! DEFINITION. The terms claims use: the invariant of the machine (spec 10_state R11 to R17), what a symbol does to the
state, whole commands as runs of steps, and the decode loop as one function (R78, R89). -/

namespace Sys2Proof.Machine

/-! ### The invariant -/

/-- A window mask (spec R17): `ALL1`, or `2^k - 1` with k at most 62. -/
def IsWindowMask (m : Nat) : Prop := m = all1 ∨ ∃ k, k ≤ 62 ∧ m = 2 ^ k - 1

/-- The chunk boundary of a session with a constrained input window (spec R12, R15, R114). -/
structure ChunkInv (s : State) : Prop where
  mask : ∃ k, 4 ≤ k ∧ k ≤ 62 ∧ s.inMask.toNat = 2 ^ k - 1
  lenBytes_pos : 1 ≤ s.lenBytes.toNat
  lenBytes_le : s.lenBytes.toNat ≤ 8
  cursor_le : s.inByte.toNat ≤ s.nextBnd.toNat
  cursor_aligned : s.inByte = s.nextBnd → s.inBitoff = 0
  multiple : s.inMask.toNat + 1 ∣ s.nextBnd.toNat
  data_lt : s.dataStart.toNat < s.nextBnd.toNat
  near : s.nextBnd.toNat ≤ s.inByte.toNat + s.inMask.toNat + 1
  reqIn_le : s.reqIn.toNat ≤ s.nextBnd.toNat

/-- A session with an unconstrained input window (spec R115). -/
structure LinearInv (s : State) : Prop where
  mask : s.inMask.toNat = all1
  lenBytes : s.lenBytes = 0
  nextBnd : s.nextBnd.toNat = all1
  reqIn : s.reqIn = s.totalLen

/-- The registers of a session (spec R11 to R17; the bound on `TOTAL_LEN` is R148's). -/
structure SessionInv (s : State) : Prop where
  totalLen_lt : s.totalLen.toNat < Config.totalLenBound
  hdr_le : s.hdrOff.toNat ≤ s.dataStart.toNat
  data_le : s.dataStart.toNat ≤ s.inByte.toNat
  decomp_pos : 1 ≤ s.decompSize.toNat
  outMask : IsWindowMask s.outMask.toNat
  invMaskIn : s.invMaskIn = s.inMask
  invMaskOut : s.invMaskOut = s.outMask
  cursor_le : s.inByte.toNat ≤ s.totalLen.toNat
  cursor_bit : s.inBitoff ≠ 0 → s.inByte.toNat < s.totalLen.toNat
  outCur_le : s.outCur.toNat ≤ s.decompSize.toNat
  reqIn_ge : s.dataStart.toNat ≤ s.reqIn.toNat
  reqIn_le : s.reqIn.toNat ≤ s.totalLen.toNat
  window : if s.chunked then ChunkInv s else LinearInv s

/-- No step in progress: no working copy, no latch. -/
structure QuietInv (s : State) : Prop where
  work : s.work = Work.none
  availIn : s.availIn = 0
  availOut : s.availOut = 0

/-- A DECODE in progress: its latches (spec R19). -/
structure LatchInv (s : State) : Prop where
  phase : s.phase = .active
  availIn : s.availIn.toNat ≤ s.totalLen.toNat
  availOut : s.availOut.toNat ≤ s.decompSize.toNat

/-- An INIT past its fit check, its header unread (spec R71). -/
structure HeaderInv (s : State) : Prop where
  phase : s.phase = .noSession
  totalLen_lt : s.arg1.toNat < Config.totalLenBound
  fits : headerEnd s ≤ s.arg1.toNat
  work : s.work = headerWork s
  availIn : s.availIn = 0
  availOut : s.availOut = 0

/-- A symbol step whose working copy has crossed the boundary its first bit lies beyond (spec R110, R111). -/
structure CrossedInv (s : State) : Prop where
  chunked : s.chunked = true
  atBoundary : s.inByte = s.nextBnd
  gates : loopTest s = none
  field : s.nextBnd.toNat + s.lenBytes.toNat ≤ s.availIn.toNat
  inByte : s.work.inByte = s.nextBnd.toNat + s.lenBytes.toNat
  bitOff : s.work.bitOff = 0
  nextBnd : s.work.nextBnd = s.nextBnd.toNat + s.inMask.toNat + 1
  reqIn_ge : s.work.inByte ≤ s.work.reqIn
  reqIn_le : s.work.reqIn ≤ min s.work.nextBnd s.totalLen.toNat

/-- What holds of the step in progress. -/
def ActivityInv (s : State) : Prop :=
  match s.activity with
  | .idle => QuietInv s
  | .init => s.cmd = 0 ∧ HeaderInv s
  | .decode => s.cmd = 0 ∧ LatchInv s ∧ s.work = Work.none
  | .symbol => s.cmd = 0 ∧ LatchInv s ∧ CrossedInv s

/-- The invariant of the machine between steps. `NBITS` is 0 there because the model keeps the accumulator empty (R27; log
entry 15). -/
structure Inv (s : State) : Prop where
  inMem : s.inMem.wf
  outMem : s.outMem.wf
  roms : s.format.romWf = true
  nbits : s.nbits = 0
  fsm : s.fsm = .readSymbol
  session : s.phase ≠ .noSession → SessionInv s
  activity : ActivityInv s

/-! ### Symbols by form -/

/-- The constructors of SMATCH with their prefixes. -/
def shortMatchForms : List (BitVec 4 × (BitVec 4 → BitVec 5 → BitVec 31 → Instr)) :=
  [(0, .smatch0), (1, .smatch1), (2, .smatch2), (3, .smatch3), (4, .smatch4), (5, .smatch5), (6, .smatch6),
   (7, .smatch7), (8, .smatch8), (9, .smatch9), (10, .smatch10), (11, .smatch11), (12, .smatch12),
   (13, .smatch13), (14, .smatch14), (15, .smatch15)]

/-- The constructors of LITRUN with their prefixes. -/
def literalForms : List (BitVec 6 × (BitVec 32 → Instr)) :=
  [(0, .litrun0), (1, .litrun1), (2, .litrun2), (3, .litrun3), (4, .litrun4), (5, .litrun5), (6, .litrun6),
   (7, .litrun7), (8, .litrun8), (9, .litrun9), (10, .litrun10), (11, .litrun11), (12, .litrun12),
   (13, .litrun13), (14, .litrun14), (15, .litrun15)] ++
  [(16, .litrun16), (17, .litrun17), (18, .litrun18), (19, .litrun19), (20, .litrun20), (21, .litrun21),
   (22, .litrun22), (23, .litrun23), (24, .litrun24), (25, .litrun25), (26, .litrun26), (27, .litrun27),
   (28, .litrun28), (29, .litrun29), (30, .litrun30), (31, .litrun31)]

/-- The constructors of LMATCH with their prefixes. -/
def longMatchForms : List (BitVec 6 × (BitVec 32 → BitVec 5 → BitVec 31 → Instr)) :=
  [(32, .lmatch32), (33, .lmatch33), (34, .lmatch34), (35, .lmatch35), (36, .lmatch36), (37, .lmatch37),
   (38, .lmatch38), (39, .lmatch39), (40, .lmatch40), (41, .lmatch41), (42, .lmatch42), (43, .lmatch43),
   (44, .lmatch44), (45, .lmatch45), (46, .lmatch46), (47, .lmatch47)] ++
  [(48, .lmatch48), (49, .lmatch49), (50, .lmatch50), (51, .lmatch51), (52, .lmatch52), (53, .lmatch53),
   (54, .lmatch54), (55, .lmatch55), (56, .lmatch56), (57, .lmatch57), (58, .lmatch58), (59, .lmatch59),
   (60, .lmatch60), (61, .lmatch61), (62, .lmatch62), (63, .lmatch63)]

/-- A match of this length and distance passes the five checks of R98. -/
structure MatchFits (s : State) (length distance : Nat) : Prop where
  size : s.outCur.toNat + length ≤ s.decompSize.toNat
  window : s.outMask.toNat ≠ all1 → length ≤ s.outMask.toNat + 1
  produced : distance ≤ s.outCur.toNat
  inWindow : s.outMask.toNat ≠ all1 → distance ≤ s.outMask.toNat + 1
  room : s.outCur.toNat + length ≤ s.availOut.toNat

/-- A literal run of this length passes checks 1, 2 and 5 of R98. -/
structure LiteralFits (s : State) (length : Nat) : Prop where
  size : s.outCur.toNat + length ≤ s.decompSize.toNat
  window : s.outMask.toNat ≠ all1 → length ≤ s.outMask.toNat + 1
  room : s.outCur.toNat + length ≤ s.availOut.toNat

/-- What a committed symbol does beside its bytes (spec R89): the cursor registers become the working copy `w`,
`OUT_CUR` grows by the length, the step is over; everything else but `OUT` is as it was. That `work` then holds zeros and
`activity` stands at the top of the next turn is the model's choice (log entries 2, 4), and so is an `ACC` that a step
never loads (R27; log entry 15). -/
def CommitFrame (s t : State) (w : Work) (length : Nat) : Prop :=
  t = { s with
    outMem := t.outMem
    inByte := BitVec.ofNat 64 w.inByte
    inBitoff := BitVec.ofNat 3 w.bitOff
    nextBnd := BitVec.ofNat 64 w.nextBnd
    reqIn := BitVec.ofNat 64 w.reqIn
    outCur := BitVec.ofNat 64 (s.outCur.toNat + length)
    fsm := .readSymbol
    work := Work.none
    activity := .decode }

/-- `OUT` outside the offsets of output positions `first` to `first + length - 1` reads as before. -/
def OutUnchangedOutside (s t : State) (first length : Nat) : Prop :=
  ∀ a, (∀ i, i < length → a ≠ offsetOf (first + i) s.outMask.toNat) → t.outMem.read a = s.outMem.read a

/-- The effect of a match (spec R97): output position `c + i` gets the byte of position
`c - distance + (i mod distance)`. -/
structure MatchEffect (s t : State) (length distance : Nat) : Prop where
  copied : ∀ i, i < length → t.outMem.read (offsetOf (s.outCur.toNat + i) s.outMask.toNat) =
    s.outMem.read (offsetOf (s.outCur.toNat - distance + i % distance) s.outMask.toNat)
  others : OutUnchangedOutside s t s.outCur.toNat length
  frame : CommitFrame s t s.work length

/-- The effect of a literal run that has fetched `bytes` and left the working copy `w` (spec R96). -/
structure LiteralEffect (s t : State) (bytes : List Byte) (w : Work) : Prop where
  stored : ∀ i, i < bytes.length → t.outMem.read (offsetOf (s.outCur.toNat + i) s.outMask.toNat) =
    bytes.getD i Memory.blank
  others : OutUnchangedOutside s t s.outCur.toNat bytes.length
  frame : CommitFrame s t w bytes.length

/-- A DECODE ended by a symbol step that failed with `st` (spec R79, R130). That `work` and the latches then hold zeros and
`activity` is `idle` is the model's choice (log entries 2, 4, 14). -/
def failedStep (st : Status) (s : State) : State :=
  { s with
    status := st
    phase := if st = .corruptStream then .failed else s.phase
    fsm := .readSymbol
    nbits := 0
    work := Work.none
    availIn := 0
    availOut := 0
    activity := .idle }

/-- An INIT that failed with `st` (spec R76, R130); `activity`, `work` and the latches as in `failedStep` (log entries 2, 4,
14). -/
def failedInit (st : Status) (s : State) : State :=
  { s with
    status := st
    ret0 := 0
    phase := .noSession
    fsm := .readSymbol
    nbits := 0
    work := Work.none
    availIn := 0
    availOut := 0
    activity := .idle }

/-- The length and the distance of a match; `none` for another instruction (spec R56). -/
def matchOperands (f : Format) (i : Instr) : Option (Nat × Nat) :=
  match i.view with
  | .short idx x dn df => some (codedLength (f.short idx) x.toNat, distanceOf dn df)
  | .extended _ x dn df => some (extendedLength x, distanceOf dn df)
  | .long idx x dn df => some (codedLength (f.long idx) x.toNat, distanceOf dn df)
  | .literal .. | .cont _ | .header .. | .init | .decode => none

/-- The length of a literal run; `none` for another instruction (spec R56). -/
def literalOperand (f : Format) (i : Instr) : Option Nat :=
  match i.view with
  | .literal idx x => some (codedLength (f.long idx) x.toNat)
  | .short .. | .extended .. | .long .. | .cont _ | .header .. | .init | .decode => none

/-- The bytes of `IN` from a position up, read through a mask (spec R30). -/
def bytesAt (m : Memory) (mask first n : Nat) : List Byte :=
  (List.range n).map fun i => m.read (offsetOf (first + i) mask)

/-- The copy of a match without a pending list (spec R97): each byte is read and written in turn. -/
def copyInPlace (mask c distance n : Nat) (m : Memory) : Memory :=
  (List.range n).foldl (fun m i => m.write (offsetOf (c + i) mask) (m.read (offsetOf (c + i - distance) mask))) m

/-- What a successful INIT leaves (spec R75, R76), from the fields of the header and INIT's arguments in `s`. The fields
`boundary` and `latches` say what the model holds at a command boundary (log entries 2, 4, 14). -/
structure SessionOpened (s t : State) (szexp : BitVec 6) (szfrac : BitVec 63) (inwin outwin : BitVec 6)
    (trail : Option Trail) : Prop where
  status : t.status = .ok
  phase : t.phase = .active
  inBase : t.inBase = s.arg0
  totalLen : t.totalLen = s.arg1
  hdrOff : t.hdrOff = s.arg2
  dataStart : t.dataStart.toNat = s.arg2.toNat + s.arg3.toNat
  decompSize : t.decompSize.toNat = 2 ^ szexp.toNat + szfrac.toNat
  inMask : t.inMask.toNat = if inwin = 63 then all1 else 2 ^ inwin.toNat - 1
  outMask : t.outMask.toNat = if outwin = 63 then all1 else 2 ^ outwin.toNat - 1
  invMaskIn : t.invMaskIn = t.inMask
  invMaskOut : t.invMaskOut = t.outMask
  lenBytes : t.lenBytes.toNat = lenBytesOf trail
  chunked : t.chunked = true ↔ inwin ≠ 63
  inByte : t.inByte = t.dataStart
  inBitoff : t.inBitoff = 0
  outCur : t.outCur = 0
  reqIn : t.reqIn.toNat = if inwin = 63 then s.arg1.toNat else t.dataStart.toNat + trailingLength trail
  nextBnd : t.nextBnd.toNat = if inwin = 63 then all1 else (t.dataStart.toNat ||| t.inMask.toNat) + 1
  ret0 : t.ret0 = t.reqIn
  boundary : t.activity = .idle ∧ t.work = Work.none ∧ t.fsm = .readSymbol ∧ t.nbits = 0
  latches : t.availIn = 0 ∧ t.availOut = 0
  args : t.cmd = s.cmd ∧ t.arg0 = s.arg0 ∧ t.arg1 = s.arg1 ∧ t.arg2 = s.arg2 ∧ t.arg3 = s.arg3
  others : t.outBase = s.outBase ∧ t.acc = s.acc ∧ t.freeCount = s.freeCount
  roms : t.shortRom = s.shortRom ∧ t.longRom = s.longRom
  memories : t.inMem = s.inMem ∧ t.outMem = s.outMem

/-- The first chunk of a header is legal (spec R75): T passes neither the first boundary nor the end of the frame. -/
def FirstChunkFits (s : State) (inwin : BitVec 6) (trail : Option Trail) : Prop :=
  s.arg2.toNat + s.arg3.toNat + trailingLength trail ≤
    min ((s.arg2.toNat + s.arg3.toNat ||| 2 ^ inwin.toNat - 1) + 1) s.arg1.toNat

/-! ### The stream as bits -/

/-- `count` bits of `IN` from a bit position up, read through a mask (spec R30, R32). -/
def streamBits (m : Memory) (mask : Nat) : Nat → Nat → List Bool
  | _, 0 => []
  | p, count + 1 => (m.read (offsetOf (p / 8) mask)).toNat.testBit (p % 8) :: streamBits m mask (p + 1) count

/-- The bit position of a cursor. -/
def bitPos (w : Work) : Nat := 8 * w.inByte + w.bitOff

/-- A cursor moved forward by a number of bits of the physical stream. -/
def advance (w : Work) (n : Nat) : Work := { w with inByte := (bitPos w + n) / 8, bitOff := (bitPos w + n) % 8 }

/-- The first position that a read from `w` cannot reach without a crossing or a status (spec R82). -/
def readLimit (e : Env) (w : Work) : Nat :=
  let lim := min e.avail e.total
  let lim := if e.chunked then min lim w.nextBnd else lim
  if e.inMask = all1 then lim else min lim (e.base + e.inMask + 1)

/-- The bits that lie ahead of `w` and can be read without a crossing or a status. -/
def bitsAhead (m : Memory) (e : Env) (w : Work) : List Bool :=
  streamBits m e.inMask (bitPos w) (8 * readLimit e w - bitPos w)

/-- The next step reads a symbol's fields from the working copy `w`: at the top of a turn whose tests pass (spec R78), or
after CONT (R111, log entry 3). -/
def SymbolReadAt (s : State) (w : Work) : Prop :=
  (s.activity = .decode ∧ loopTest s = none ∧ w = copyWork s) ∨ (s.activity = .symbol ∧ w = s.work ∧ w.bitOff < 8)

/-! ### Commands as runs of steps -/

/-- A run of steps from `s` reaches the command boundary `t`. -/
def CommandRuns (s t : State) : Prop := ∃ k, Host.Core.run Sys2Proof.core k s = .next t ∧ t.busy = false

/-- The state in which a DECODE with these arguments has been issued (spec R23, R77). -/
def issueDecode (ai ao : Word) (s : State) : State := { s with arg0 := ai, arg1 := ao, cmd := 2 }

/-- The state in which an INIT with these arguments has been issued (spec R23, R70). -/
def issueInit (buffer totalLen hdrOff hdrSize : Word) (s : State) : State :=
  { s with arg0 := buffer, arg1 := totalLen, arg2 := hdrOff, arg3 := hdrSize, cmd := 1 }

/-- SymbolStep as one function (spec R89): every crossing inside it, none as a step of its own. -/
def symbolStep (s : State) : State :=
  match fetchSymbol (beginSymbol s) with
  | .stop t => t
  | .run i s' =>
    match exec i s' with
    | .next t => t
    | .fault _ => s'
    | .refused _ => s'

/-- decode_loop as one function (spec R78), at most `fuel` turns. -/
def decodeLoop : Nat → State → State
  | 0, s => s
  | fuel + 1, s =>
    match loopTest s with
    | some st => stopLoop st s
    | none =>
      let t := symbolStep s
      if t.activity = .decode then decodeLoop fuel t else t

end Sys2Proof.Machine
end

