-- ==== Sys2Proof/Certificates/Slice0/Obligations.lean ====
section
/-! DEFINITION. The statements for the provers, in the order of OBLIGATIONS.json. -/

section

open Sys2Proof Sys2Proof.Machine

/-! ### Encoding -/

/-- Decoding an encoded well-formed instruction gives it back and leaves the bits after it, for every instruction,
all ROM contents and every operand the encoding admits (spec R51, R52, R55, R57, R58). -/
def Obligations.DecodeOfEncode : Prop :=
  ∀ (f : Format) (i : Instr) (rest : List Bool), i.wf f = true →
    decodeBits f i.slot (encode f i ++ rest) = .ok (i, rest)

/-- The other direction, for the symbols: what decodes is well-formed and its bits are its encoding, so that no
symbol has two codes and no code two symbols (spec R52, R55, R90). -/
def Obligations.SymbolHasOneCode : Prop :=
  ∀ (f : Format) (bs rest : List Bool) (i : Instr), f.romWf = true → decodeBits f .symbol bs = .ok (i, rest) →
    i.slot = .symbol ∧ i.wf f = true ∧ bs = encode f i ++ rest

/-- The worked examples of R91, R92, R95, R99, R74 and R110, and the two commands. -/
def Obligations.DecodeExamples : Prop :=
  decodeBytes (defaultFormat 0) .symbol [0xb0, 0x08] = .ok (.smatch8 1 2 1, [false, false, false]) ∧
  decodeBytes (defaultFormat 0) .symbol [0x7e, 0x06, 0x00] =
    .ok (.smatchx 15 3 3 0, [false, false, false, false, false, false, false]) ∧
  decodeBytes (defaultFormat 0) .symbol [0x05] = .ok (.litrun2 0, [false]) ∧
  decodeBytes (defaultFormat 0) .symbol [0xc9, 0x23, 0x16] = .ok (.lmatch36 7 8 44, [false]) ∧
  decodeBytes (defaultFormat 0) .header [0x05, 0x60, 0x18, 0x00, 0x10] = .ok (.hdr 5 0 12 12 (some ⟨0, 16⟩), []) ∧
  decodeBytes (defaultFormat 1) .cont [0x0a] = .ok (.cont 10, []) ∧
  decodeBits (defaultFormat 0) .command [true, false] = .ok (.init, []) ∧
  decodeBits (defaultFormat 0) .command [false, true] = .ok (.decode, [])

/-- Every well-formed instruction's code has a length within the bounds of its format (spec R60). -/
def Obligations.CodeLengthBounds : Prop := ∀ i : Instr, Sys2Proof.Laws.CodeLength.Statement i

/-! ### The BitReader -/

/-- `take` in closed form where no boundary and no status intervenes (spec R83): bit i of the value is stream bit
`s + i`, and the cursor moves to `s + n`. -/
def Obligations.TakeClosedForm : Prop :=
  ∀ (m : Memory) (e : Env) (n : Nat) (w : Work), w.bitOff < 8 → bitPos w + n ≤ 8 * readLimit e w →
    ∃ v, take m e n w = .ok (v, advance w n) ∧ v < 2 ^ n ∧
      ∀ i, i < n → v.testBit i =
        (m.read (offsetOf ((bitPos w + i) / 8) e.inMask)).toNat.testBit ((bitPos w + i) % 8)

/-- `FetchByte` (spec R82): the crossing first, then (a) before (b) before (c), then the byte. -/
def Obligations.FetchByteOrder : Prop :=
  ∀ (m : Memory) (e : Env) (w : Work),
    fetchByte m e w =
      match (if e.chunked = true ∧ w.inByte = w.nextBnd then crossBoundary m e w else .ok w) with
      | .error st => .error st
      | .ok w' =>
        if e.inMask ≠ all1 ∧ w'.inByte ≥ e.base + e.inMask + 1 then .error .corruptStream
        else if w'.inByte ≥ e.total then .error e.totalStatus
        else if w'.inByte ≥ e.avail then .error .needMoreInput
        else .ok (m.read (offsetOf w'.inByte e.inMask), w')

/-- A read whose result is not `NeedMoreInput` is the same with more input available (spec R82: the result does not
depend on how much the host has supplied beyond what is read). -/
def Obligations.MoreInputSameRead : Prop :=
  ∀ (m : Memory) (e : Env) (w : Work) (a : Nat), e.avail ≤ a →
    (∀ (α : Type) (p : Parse α), (∀ st, runParse m e p w = .error st → st ≠ .needMoreInput) →
      runParse m { e with avail := a } p w = runParse m e p w) ∧
    (∀ n, (∀ st, takeBytes m e n w = .error st → st ≠ .needMoreInput) →
      takeBytes m { e with avail := a } n w = takeBytes m e n w)

/-- `take_wide` is `take` of the n bits one by one (spec R84), as a function and inside a format. -/
def Obligations.TakeWideIsTake : Prop :=
  ∀ (m : Memory) (e : Env) (n : Nat) (w : Work), n ≤ 63 →
    takeWide m e n w = take m e n w ∧
    runParse m e (Parse.takeWide n .done) w = take m e n w

/-- `take_byte` is `take(8)` at a byte-aligned cursor (spec R86), where a field is shorter than its chunk (R110). -/
def Obligations.TakeByteIsTake : Prop :=
  ∀ (m : Memory) (e : Env) (w : Work), w.bitOff = 0 → (e.chunked = true → e.lenBytes < e.stride) →
    take m e 8 w =
      match takeByte m e w with
      | .error st => .error st
      | .ok (b, w') => .ok (b.toNat, w')

/-- `ExtendedRun` in isolation (spec R93): for each bit offset, the result is 17 + x, the cursor advances 4 bits, and
the byte after the cursor's is fetched exactly when the offset is 5 or more. -/
def Obligations.ExtendedRunAlone : Prop :=
  ∀ (m : Memory) (e : Env) (w : Work), e.chunked = false → w.bitOff < 8 → byteChecks e w.inByte = none →
    (w.bitOff ≤ 4 → runParse m e (extendedRun fun x => .done (extendedLength x)) w =
      .ok (17 + (m.read (offsetOf w.inByte e.inMask)).toNat / 2 ^ w.bitOff % 16, advance w 4)) ∧
    (5 ≤ w.bitOff → ∀ st, byteChecks e (w.inByte + 1) = some st →
      runParse m e (extendedRun fun x => .done (extendedLength x)) w = .error st) ∧
    (5 ≤ w.bitOff → byteChecks e (w.inByte + 1) = none →
      runParse m e (extendedRun fun x => .done (extendedLength x)) w =
        .ok (17 + ((m.read (offsetOf w.inByte e.inMask)).toNat +
          256 * (m.read (offsetOf (w.inByte + 1) e.inMask)).toNat) / 2 ^ w.bitOff % 16, advance w 4)) ∧
    ((advance w 4).inByte = w.inByte + 1 ↔ 4 ≤ w.bitOff)

/-- `ReadDistance` (spec R94): 5 bits dn, then dn bits f when dn is not 0; the distance is `2^dn + f`, 1 to
2^32 - 1. -/
def Obligations.ReadDistanceValue : Prop :=
  ∀ (m : Memory) (e : Env) (w : Work),
    (∀ st, take m e 5 w = .error st →
      runParse m e (readDistance fun dn df => .done (distanceOf dn df)) w = .error st) ∧
    (∀ w1, take m e 5 w = .ok (0, w1) →
      runParse m e (readDistance fun dn df => .done (distanceOf dn df)) w = .ok (1, w1)) ∧
    (∀ dn w1 st, 0 < dn → take m e 5 w = .ok (dn, w1) → take m e dn w1 = .error st →
      runParse m e (readDistance fun dn df => .done (distanceOf dn df)) w = .error st) ∧
    (∀ dn w1 f w2, 0 < dn → take m e 5 w = .ok (dn, w1) → take m e dn w1 = .ok (f, w2) →
      runParse m e (readDistance fun dn df => .done (distanceOf dn df)) w = .ok (2 ^ dn + f, w2) ∧
        1 ≤ 2 ^ dn + f ∧ 2 ^ dn + f ≤ 2 ^ 32 - 1)

/-- `CrossBoundary` (spec R110): checks (a) to (d) in order, V little-endian, and the writes of W. -/
def Obligations.CrossBoundaryRule : Prop :=
  ∀ (m : Memory) (e : Env) (w : Work), e.lenBytes ≤ 8 →
    let first := w.nextBnd + e.lenBytes
    let v := (Finset.range e.lenBytes).sum fun i => (m.read (offsetOf (w.nextBnd + i) e.inMask)).toNat * 2 ^ (8 * i)
    crossBoundary m e w =
      if first > e.base + e.inMask + 1 then .error .corruptStream
      else if first > e.total then .error .corruptStream
      else if first > e.avail then .error .needMoreInput
      else if first + v > min (w.nextBnd + e.stride) e.total then .error .corruptStream
      else .ok ⟨first, w.bitOff, w.nextBnd + e.stride, first + v⟩

/-- Literal bytes across one boundary (spec R81, R111): a bytes up to the boundary and b bytes after the field are
adjacent in the logical stream. -/
def Obligations.LiteralBytesAcross : Prop :=
  ∀ (m : Memory) (e : Env) (w w1 : Work) (a b : Nat), e.chunked = true → w.inByte + a = w.nextBnd → 0 < b →
    crossBoundary m e w = .ok w1 → w1.inByte + b ≤ readLimit e w1 →
      takeBytes m e (a + b) w =
        .ok (bytesAt m e.inMask w.inByte a ++ bytesAt m e.inMask w1.inByte b, { w1 with inByte := w1.inByte + b })

/-- Reading through the accumulator and its refill policy gives the fields and the statuses that `take` gives
(spec R27, R87), from a cursor and an environment that a session can have (R12, R19, R41). -/
def Obligations.AccumulatorAgrees : Prop :=
  ∀ (m : Memory) (e : Env) (w : Work) (ns : List Nat), w.bitOff < 8 →
    (e.chunked = true → w.inByte ≤ w.nextBnd ∧ (w.inByte = w.nextBnd → w.bitOff = 0) ∧ e.lenBytes < e.stride) →
    e.avail ≤ e.total → (e.inMask ≠ all1 → e.avail ≤ e.base + e.inMask + 1) →
    (∀ n ∈ ns, 1 ≤ n ∧ n ≤ Config.takeMax) →
      accTakes m e ns (accEmpty w) = takes m e ns w

/-! ### A step runs the instruction at the cursor -/

/-- Where the bits at the cursor decode to a symbol, the step is its meaning, on the state whose working copy stands
after its fields (spec R89, R90, R12); the same where CONT has just moved the working copy (R111). That a step is one
instruction, that CONT before a symbol's first bit is a step of its own (`activity` then is `symbol`) and that the
working copy stands in `work` is the model's choice (log entries 2, 3, 4). -/
def Obligations.StepRunsSymbol : Prop :=
  ∀ (s : State) (i : Instr) (rest : List Bool),
    (s.activity = .decode → loopTest s = none →
      decodeBits s.format .symbol (bitsAhead s.inMem (decodeEnv s) (copyWork s)) = .ok (i, rest) →
        step s = exec i { s with
          work := advance (copyWork s) ((bitsAhead s.inMem (decodeEnv s) (copyWork s)).length - rest.length)
          fsm := fsmRun .readSymbol (readEvents i) }) ∧
    (s.activity = .symbol → s.work.bitOff < 8 →
      decodeBits s.format .symbol (bitsAhead s.inMem (decodeEnv s) s.work) = .ok (i, rest) →
        step s = exec i { s with
          work := advance s.work ((bitsAhead s.inMem (decodeEnv s) s.work).length - rest.length)
          fsm := fsmRun s.fsm (readEvents i) })

/-- A symbol with a boundary in its middle (spec R81, R111): its bits before the boundary and those after the field
are adjacent, and the step is its meaning. The field `work` is the model's (log entry 4). -/
def Obligations.StepRunsSymbolAcross : Prop :=
  ∀ (s : State) (i : Instr) (rest : List Bool) (w1 : Work), s.activity = .decode → loopTest s = none →
    s.chunked = true → s.inByte.toNat < s.nextBnd.toNat →
    crossBoundary s.inMem (decodeEnv s) { copyWork s with inByte := s.nextBnd.toNat, bitOff := 0 } = .ok w1 →
    decodeBits s.format .symbol
      (streamBits s.inMem s.inMask.toNat (bitPos (copyWork s)) (8 * s.nextBnd.toNat - bitPos (copyWork s)) ++
        bitsAhead s.inMem (decodeEnv s) w1) = .ok (i, rest) →
    rest.length < (bitsAhead s.inMem (decodeEnv s) w1).length →
      step s = exec i { s with
        work := advance w1 ((bitsAhead s.inMem (decodeEnv s) w1).length - rest.length)
        fsm := fsmRun .readSymbol (readEvents i) }

/-- On a boundary the step is CONT with the field's value, or the status of checks (a), (b), (c) (spec R110, R111). That
CONT is a step of its own, and what `work` and the latches hold after a failure, is the model's choice (log entries 2,
3, 4, 14). -/
def Obligations.StepRunsCont : Prop :=
  ∀ s : State, s.activity = .decode → loopTest s = none → s.chunked = true → s.inByte = s.nextBnd →
    (∀ st, contChecks (decodeEnv s) (copyWork s) = some st → step s = .next (failedStep st s)) ∧
    (contChecks (decodeEnv s) (copyWork s) = none → ∀ i,
      decodeBits s.format .cont
        (streamBits s.inMem s.inMask.toNat (8 * s.nextBnd.toNat) (8 * s.lenBytes.toNat)) = .ok (i, []) →
      step s = exec i (beginSymbol s))

/-- Where the bits of the header decode, the step of an INIT is the meaning of HDR; where they end inside the header,
the INIT fails with `HeaderTruncated` (spec R71 to R74). That the header is a step of its own, and what `work` and the
latches hold after a failure, is the model's choice (log entries 2, 4, 14). -/
def Obligations.StepRunsHeader : Prop :=
  ∀ s : State, s.activity = .init → s.work.bitOff = 0 →
    (∀ i rest, decodeBits s.format .header (bitsAhead s.inMem (headerEnv s) s.work) = .ok (i, rest) →
      step s = exec i { s with
        work := advance s.work ((bitsAhead s.inMem (headerEnv s) s.work).length - rest.length) }) ∧
    (∀ r, decodeBits s.format .header (bitsAhead s.inMem (headerEnv s) s.work) = .error r →
      step s = .next (failedInit .headerTruncated s))

/-- At a command boundary the step runs the command written to `CMD`; 0 and 3 make no transition but that the latch is
dropped (spec R23, R58, R59, R138). That a command's first step is a step of its own is the model's choice (log entry
2), and so is the drop of the latch (log entry 19). -/
def Obligations.StepRunsCommand : Prop :=
  ∀ s : State, s.activity = .idle →
    (s.cmd = 1 → step s = exec .init { s with cmd := 0 }) ∧
    (s.cmd = 2 → step s = exec .decode { s with cmd := 0 }) ∧
    (s.cmd = 0 ∨ s.cmd = 3 → step s = .next { s with cmd := 0 })

/-- Where the bits that can be read end inside the symbol's fields, the step fails with the status of the first byte that
is missing and changes nothing else (spec R82, R89, R102, R110): at the top of a turn and after CONT (`SymbolReadAt`).
First, the bits end before the boundary, or there is none. Second, they end at the boundary, and its field is missing or
corrupt: the status is CrossBoundary's. Third, they end behind the field. `activity`, `work` and the latches after the
failure are the model's (log entries 2, 3, 4, 14). -/
def Obligations.SymbolBitsRunOut : Prop :=
  ∀ (s : State) (w : Work) (r : Reject) (st : Status), SymbolReadAt s w →
    ((s.chunked = true → w.inByte ≠ w.nextBnd ∧ readLimit (decodeEnv s) w < w.nextBnd) →
      decodeBits s.format .symbol (bitsAhead s.inMem (decodeEnv s) w) = .error r →
      byteChecks (decodeEnv s) (max w.inByte (readLimit (decodeEnv s) w)) = some st →
        step s = .next (failedStep st s)) ∧
    (s.chunked = true → w.inByte < w.nextBnd → readLimit (decodeEnv s) w = w.nextBnd →
      decodeBits s.format .symbol (bitsAhead s.inMem (decodeEnv s) w) = .error r →
      crossBoundary s.inMem (decodeEnv s) { w with inByte := w.nextBnd, bitOff := 0 } = .error st →
        step s = .next (failedStep st s)) ∧
    (∀ w1, s.chunked = true → w.inByte < w.nextBnd →
      crossBoundary s.inMem (decodeEnv s) { w with inByte := w.nextBnd, bitOff := 0 } = .ok w1 →
      w1.inByte ≠ w1.nextBnd → readLimit (decodeEnv s) w1 < w1.nextBnd →
      decodeBits s.format .symbol
        (streamBits s.inMem s.inMask.toNat (bitPos w) (8 * w.nextBnd - bitPos w) ++
          bitsAhead s.inMem (decodeEnv s) w1) = .error r →
      byteChecks (decodeEnv s) (max w1.inByte (readLimit (decodeEnv s) w1)) = some st →
        step s = .next (failedStep st s))

/-! ### The symbols -/

/-- SMATCH.0 to SMATCH.14 (and entry 15 of a ROM whose entry is no sentinel): within the bounds each completes, copies
with tiling, and changes nothing else (spec R91, R97, R89). In the frame, `activity` back at the top of a turn and an
empty `work` are the model's (log entries 2, 4). -/
def Obligations.ShortMatchCopies : Prop :=
  ∀ p ∈ shortMatchForms, ∀ (x : BitVec 4) (dn : BitVec 5) (df : BitVec 31) (s : State),
    MatchFits s (codedLength (s.format.short p.1) x.toNat) (distanceOf dn df) → IsWindowMask s.outMask.toNat →
    s.outMem.wf →
      ∃ t, exec (p.2 x dn df) s = .next t ∧
        MatchEffect s t (codedLength (s.format.short p.1) x.toNat) (distanceOf dn df)

/-- SMATCHX (spec R92, R93): length `17 + EXT4`; otherwise as SMATCH (frame: log entries 2, 4). -/
def Obligations.ExtendedMatchCopies : Prop :=
  ∀ (pfx x : BitVec 4) (dn : BitVec 5) (df : BitVec 31) (s : State),
    MatchFits s (17 + x.toNat) (distanceOf dn df) → IsWindowMask s.outMask.toNat → s.outMem.wf →
      ∃ t, exec (.smatchx pfx x dn df) s = .next t ∧ MatchEffect s t (17 + x.toNat) (distanceOf dn df)

/-- LMATCH.32 to LMATCH.63 (spec R99): lengths from `LONG_ROM`; otherwise as SMATCH (frame: log entries 2, 4). -/
def Obligations.LongMatchCopies : Prop :=
  ∀ p ∈ longMatchForms, ∀ (x : BitVec 32) (dn : BitVec 5) (df : BitVec 31) (s : State),
    MatchFits s (codedLength (s.format.long p.1) x.toNat) (distanceOf dn df) → IsWindowMask s.outMask.toNat →
    s.outMem.wf →
      ∃ t, exec (p.2 x dn df) s = .next t ∧
        MatchEffect s t (codedLength (s.format.long p.1) x.toNat) (distanceOf dn df)

/-- LITRUN.0 to LITRUN.31 (spec R95, R96): within the bounds, with the run's bytes below every limit of the chunk, each
completes: the pad is skipped and the bytes are copied from `IN` to `OUT` (frame: log entries 2, 4). -/
def Obligations.LiteralRunStores : Prop :=
  ∀ p ∈ literalForms, ∀ (x : BitVec 32) (s : State),
    LiteralFits s (codedLength (s.format.long p.1) x.toNat) → IsWindowMask s.outMask.toNat → s.outMem.wf →
    (alignWork s.work).inByte + codedLength (s.format.long p.1) x.toNat ≤ readLimit (decodeEnv s) (alignWork s.work) →
      ∃ t, exec (p.2 x) s = .next t ∧
        LiteralEffect s t
          (bytesAt s.inMem s.inMask.toNat (alignWork s.work).inByte (codedLength (s.format.long p.1) x.toNat))
          { alignWork s.work with
            inByte := (alignWork s.work).inByte + codedLength (s.format.long p.1) x.toNat }

/-- LITRUN over any number of boundaries (spec R96, R111): the bytes stored are those the logical stream gives (frame:
log entries 2, 4). -/
def Obligations.LiteralRunStoresStream : Prop :=
  ∀ p ∈ literalForms, ∀ (x : BitVec 32) (s : State) (bytes : List Byte) (w : Work),
    LiteralFits s (codedLength (s.format.long p.1) x.toNat) → IsWindowMask s.outMask.toNat → s.outMem.wf →
    takeBytes s.inMem (decodeEnv s) (codedLength (s.format.long p.1) x.toNat) (alignWork s.work) = .ok (bytes, w) →
      ∃ t, exec (p.2 x) s = .next t ∧ LiteralEffect s t bytes w

/-- The bounds checks (spec R98): for a match checks 1 to 5, for a literal run 1, 2 and 5, in this order; the failed
step changes nothing but what R79 names and the model's own: `activity`, an empty `work`, latches at 0 (log entries 2,
4, 14). -/
def Obligations.BoundsChecks : Prop :=
  ∀ (i : Instr) (s : State), s.activity ≠ .init →
    (∀ length distance, matchOperands s.format i = some (length, distance) →
      (s.outCur.toNat + length > s.decompSize.toNat ∨
        (s.outMask.toNat ≠ all1 ∧ length > s.outMask.toNat + 1) ∨
        distance > s.outCur.toNat ∨
        (s.outMask.toNat ≠ all1 ∧ distance > s.outMask.toNat + 1) →
          exec i s = .next (failedStep .corruptStream s)) ∧
      (s.outCur.toNat + length ≤ s.decompSize.toNat →
        (s.outMask.toNat ≠ all1 → length ≤ s.outMask.toNat + 1) →
        distance ≤ s.outCur.toNat →
        (s.outMask.toNat ≠ all1 → distance ≤ s.outMask.toNat + 1) →
        s.outCur.toNat + length > s.availOut.toNat →
          exec i s = .next (failedStep .needMoreOutput s))) ∧
    (∀ length, literalOperand s.format i = some length →
      (s.outCur.toNat + length > s.decompSize.toNat ∨
        (s.outMask.toNat ≠ all1 ∧ length > s.outMask.toNat + 1) →
          exec i s = .next (failedStep .corruptStream s)) ∧
      (s.outCur.toNat + length ≤ s.decompSize.toNat →
        (s.outMask.toNat ≠ all1 → length ≤ s.outMask.toNat + 1) →
        s.outCur.toNat + length > s.availOut.toNat →
          exec i s = .next (failedStep .needMoreOutput s)))

/-- A literal run whose bytes are not all there fails with the status of the first missing byte and writes nothing
(spec R96, R82); with a linear input that is `CorruptStream` at the end of the frame and `NeedMoreInput` before it. In
the frame, `activity`, `work` and the latches are the model's (log entries 2, 4, 14). -/
def Obligations.LiteralBytesMissing : Prop :=
  ∀ (i : Instr) (s : State) (length : Nat), s.activity ≠ .init → literalOperand s.format i = some length →
    LiteralFits s length →
    (∀ st, takeBytes s.inMem (decodeEnv s) length (alignWork s.work) = .error st →
      exec i s = .next (failedStep st s)) ∧
    (s.chunked = false → s.inMask.toNat = all1 → s.availIn.toNat ≤ s.totalLen.toNat →
      (alignWork s.work).inByte ≤ s.availIn.toNat → (alignWork s.work).inByte + length > s.availIn.toNat →
        exec i s = .next (failedStep (if s.availIn = s.totalLen then .corruptStream else .needMoreInput) s))

/-! ### CONT, the header and the commands -/

/-- CONT (spec R110): where the chunk passes neither the next boundary nor the frame's end, the working copy moves over
the field; else the step fails with `CorruptStream` (check (d)). That CONT is a step of its own, which leaves `activity`
at `symbol` and W in `work`, and what `work` and the latches hold after a failure, is the model's choice (log entries 2,
3, 4, 14). -/
def Obligations.ContMoves : Prop :=
  ∀ (v : Word) (s : State),
    (s.work.nextBnd + s.lenBytes.toNat + v.toNat ≤
        min (s.work.nextBnd + (s.invMaskIn.toNat + 1)) s.totalLen.toNat →
      exec (.cont v) s = .next { s with
        work := ⟨s.work.nextBnd + s.lenBytes.toNat, s.work.bitOff, s.work.nextBnd + (s.invMaskIn.toNat + 1),
          s.work.nextBnd + s.lenBytes.toNat + v.toNat⟩
        activity := .symbol }) ∧
    (s.activity ≠ .init →
      s.work.nextBnd + s.lenBytes.toNat + v.toNat >
        min (s.work.nextBnd + (s.invMaskIn.toNat + 1)) s.totalLen.toNat →
      exec (.cont v) s = .next (failedStep .corruptStream s))

/-- HDR (spec R72 to R76): a well-formed header whose window code is not reserved and whose first chunk is legal opens
the session. What `SessionOpened` says of `activity`, `work` and the latches is the model's (log entries 2, 4, 14). -/
def Obligations.HdrOpensSession : Prop :=
  ∀ (f : Format) (e : BitVec 6) (fr : BitVec 63) (iw ow : BitVec 6) (tr : Option Trail) (s : State),
    (Instr.hdr e fr iw ow tr).wf f = true → s.arg1.toNat < 2 ^ 63 → s.arg2.toNat + s.arg3.toNat ≤ s.arg1.toNat →
    4 ≤ iw.toNat → (iw ≠ 63 → FirstChunkFits s iw tr) →
      ∃ t, exec (.hdr e fr iw ow tr) s = .next t ∧ SessionOpened s t e fr iw ow tr

/-- HDR is turned down with `CorruptStream` when `INWIN` is reserved or the first chunk is not legal, and then no session
exists (spec R73, R75, R76; `activity`, `work` and the latches: log entries 2, 4, 14). -/
def Obligations.HdrRejects : Prop :=
  ∀ (e : BitVec 6) (fr : BitVec 63) (iw ow : BitVec 6) (tr : Option Trail) (s : State), s.activity = .init →
    (iw.toNat < 4 ∨ (4 ≤ iw.toNat ∧ iw ≠ 63 ∧ ¬ FirstChunkFits s iw tr)) →
      exec (.hdr e fr iw ow tr) s = .next (failedInit .corruptStream s)

/-- INIT (spec R70, R71): it discards the session and stands before the header; a header that does not fit is
`HeaderTruncated`; `totalLen` of 2^63 or more is refused (spec D37, U3; log entry 7). That INIT and its header are two
steps, with W in `work` between them, is the model's choice (log entries 2, 4), and so are the latches after a failure
(log entry 14). -/
def Obligations.InitBegins : Prop :=
  ∀ s : State,
    (s.arg1.toNat < 2 ^ 63 → s.arg2.toNat + s.arg3.toNat ≤ s.arg1.toNat →
      exec .init s = .next { s with
        phase := .noSession, activity := .init, work := ⟨s.arg2.toNat, 0, 0, 0⟩, fsm := .readSymbol }) ∧
    (s.arg1.toNat < 2 ^ 63 → s.arg2.toNat + s.arg3.toNat > s.arg1.toNat →
      exec .init s = .next (failedInit .headerTruncated s)) ∧
    (s.arg1.toNat ≥ 2 ^ 63 → exec .init s = .refused .totalLenTooLarge)

/-- The whole INIT command on a frame whose header is the encoding of a legal HDR (spec R70 to R76): it returns with the
session open. What `SessionOpened` says of `activity`, `work` and the latches is the model's (log entries 2, 4, 14). -/
def Obligations.InitCommandOpensSession : Prop :=
  ∀ (f : Format) (e : BitVec 6) (fr : BitVec 63) (iw ow : BitVec 6) (tr : Option Trail) (s : State)
    (base tl ho hs : Word) (rest : List Bool), s.busy = false →
    (Instr.hdr e fr iw ow tr).wf f = true → tl.toNat < 2 ^ 63 → ho.toNat + hs.toNat ≤ tl.toNat →
    streamBits s.inMem all1 (8 * ho.toNat) (8 * hs.toNat) = encode f (.hdr e fr iw ow tr) ++ rest →
    4 ≤ iw.toNat → (iw ≠ 63 → FirstChunkFits (issueInit base tl ho hs s) iw tr) →
      ∃ t, CommandRuns (issueInit base tl ho hs s) t ∧
        SessionOpened { issueInit base tl ho hs s with cmd := 0 } t e fr iw ow tr

/-- DECODE by phase (spec R77): outside `Active` only `STATUS` changes; in `Active` the latches are clamped, the
accumulator is emptied and the loop begins: `activity` says so (the model's, log entry 2). -/
def Obligations.DecodeByPhase : Prop :=
  ∀ s : State,
    (s.phase = .noSession → exec .decode s = .next { s with status := .noSession }) ∧
    (s.phase = .failed → exec .decode s = .next { s with status := .corruptStream }) ∧
    (s.phase = .done → exec .decode s = .next { s with status := .done }) ∧
    (s.phase = .active → ∃ ai ao : Word, ai.toNat = min s.arg0.toNat s.totalLen.toNat ∧
      ao.toNat = min s.arg1.toNat s.decompSize.toNat ∧
      exec .decode s = .next { s with availIn := ai, availOut := ao, nbits := 0, activity := .decode })

/-- The tests at the top of a turn, in order (spec R78): termination, input gate, output gate; a gate changes nothing but
`STATUS` and ends the command. That a turn of the loop is a step of its own, that `activity` is put to `idle`, `work` to
zeros and the latches of R19 to 0 is the model's choice (log entries 2, 4, 14). -/
def Obligations.LoopTestsStop : Prop :=
  ∀ s : State, s.activity = .decode →
    (s.outCur = s.decompSize → step s = .next { s with
      status := .done, phase := .done, activity := .idle, work := Work.none, availIn := 0, availOut := 0 }) ∧
    (s.outCur ≠ s.decompSize → s.availIn.toNat < s.reqIn.toNat → step s = .next { s with
      status := .needMoreInput, activity := .idle, work := Work.none, availIn := 0, availOut := 0 }) ∧
    (s.outCur ≠ s.decompSize → s.reqIn.toNat ≤ s.availIn.toNat → s.availOut.toNat < reqOut s → step s = .next { s with
      status := .needMoreOutput, activity := .idle, work := Work.none, availIn := 0, availOut := 0 })

/-- `REQ_OUT` (spec R18): the declared size when unconstrained, else `(OUT_CUR | INV_MASK_OUT) + 1` capped by it, which
is the end of the lap that holds `OUT_CUR`. -/
def Obligations.ReqOutIsLapEnd : Prop :=
  ∀ s : State,
    (s.invMaskOut.toNat = all1 → reqOut s = s.decompSize.toNat) ∧
    (s.invMaskOut.toNat ≠ all1 → reqOut s = min ((s.outCur.toNat ||| s.invMaskOut.toNat) + 1) s.decompSize.toNat) ∧
    (∀ k, k ≤ 62 → s.invMaskOut.toNat = 2 ^ k - 1 →
      reqOut s = min ((s.outCur.toNat / 2 ^ k + 1) * 2 ^ k) s.decompSize.toNat)

/-- The transitions of the decode state machine, all of them (spec R100). -/
def Obligations.StateMachineRows : Prop :=
  ∀ (a b : Fsm) (ev : FsmEvent), fsmNext a ev = some b ↔
    (a = .readSymbol ∧ ev = .shortClass ∧ b = .copyMatch) ∨
    (a = .readSymbol ∧ ev = .shortSentinel ∧ b = .extendedRun) ∨
    (a = .extendedRun ∧ ev = .extBitsRead ∧ b = .copyMatch) ∨
    (a = .readSymbol ∧ ev = .longLiteral ∧ b = .copyLiteralRun) ∨
    (a = .readSymbol ∧ ev = .longMatch ∧ b = .copyMatch) ∨
    ((a = .copyLiteralRun ∨ a = .copyMatch) ∧ ev = .copyComplete ∧ b = .readSymbol) ∨
    (ev = .statusRaised ∧ b = .readSymbol)

/-! ### The machine -/

/-- The invariant holds at reset, and reset leaves what the spec gives (spec R28). That no latch and no working copy is
held there, which `Inv` asks, is the model's choice (log entries 4, 14). -/
def Obligations.ResetInv : Prop :=
  Inv State.reset ∧ State.reset.phase = .noSession ∧ State.reset.status.code = 6 ∧ State.reset.ret0 = 0 ∧
    State.reset.fsm = .readSymbol ∧ State.reset.nbits = 0 ∧ State.reset.busy = false

/-- Every step keeps the invariant: memories canonical, ROMs well-formed, and in a session the cursors, gates, masks and
boundaries as R11 to R17 say; also in the middle of a command, where `Inv` speaks of the model's own fields `activity`
and `work` (log entries 2, 3, 4, 14). That `NBITS` is 0 at every step is the model's choice too (R27; log entry 15). -/
def Obligations.StepKeepsInv : Prop := ∀ s t : State, Inv s → step s = .next t → Inv t

/-- What the host may do keeps the invariant. -/
def Obligations.HostKeepsInv : Prop :=
  ∀ s : State, Inv s →
    (∀ index value t, hostWrite index value s = .next t → Inv t) ∧
    (∀ index q, hostRead index s = .next q → Inv q.1) ∧
    (∀ offset b t, hostStore offset b s = .next t → Inv t) ∧
    (∀ t, hostReset s = .next t → Inv t)

/-- The bounds of every session (spec R16), the shape of its masks (R17), and what the masks do: in a DECODE a step reads
and writes `IN` and `OUT` only at offsets from 0 to the mask (R16, R17, R40). Another content of `IN` above `IN_MASK`
changes nothing; another content of `OUT` above `OUT_MASK` changes nothing and stays. Which offsets those are, position
and mask, is said by InputReadSet, OutputWriteSet and OutputReadSet. -/
def Obligations.SessionBounds : Prop :=
  ∀ s t : State, Inv s → step s = .next t →
    (t.phase ≠ .noSession →
      (t.inBitoff = 0 → t.inByte.toNat ≤ t.totalLen.toNat) ∧
      (t.inBitoff ≠ 0 → t.inByte.toNat < t.totalLen.toNat) ∧
      t.outCur.toNat ≤ t.decompSize.toNat ∧
      (∃ k, t.inMask.toNat + 1 = 2 ^ k) ∧ (∃ k, t.outMask.toNat + 1 = 2 ^ k)) ∧
    (s.activity = .decode ∨ s.activity = .symbol →
      (∀ m : Memory, (∀ a, a ≤ s.inMask.toNat → m.read a = s.inMem.read a) →
        step { s with inMem := m } = .next { t with inMem := m }) ∧
      (∀ m : Memory, m.wf → (∀ a, a ≤ s.outMask.toNat → m.read a = s.outMem.read a) →
        ∃ m', step { s with outMem := m } = .next { t with outMem := m' } ∧
          (∀ a, a ≤ s.outMask.toNat → m'.read a = t.outMem.read a) ∧
          (∀ a, s.outMask.toNat < a → m'.read a = m.read a)) ∧
      (∀ a, s.outMask.toNat < a → t.outMem.read a = s.outMem.read a))

/-- A DECODE ends precisely (spec R79, R120, R126, R130): the state is that after the last committed symbol but for
`STATUS` and `PHASE`, the status is one of four, never `Ok`, and the phase follows it. The values of `activity`, `work`
and the latches at the end are the model's (log entries 2, 4, 14). -/
def Obligations.DecodeEndsPrecisely : Prop :=
  ∀ s t : State, Inv s → s.activity = .decode ∨ s.activity = .symbol → step s = .next t → t.activity = .idle →
    t = { s with
      status := t.status, phase := t.phase, activity := .idle, work := Work.none, availIn := 0, availOut := 0 } ∧
    ((t.status = .done ∧ t.phase = .done ∧ s.outCur = s.decompSize) ∨
      (t.status = .needMoreInput ∧ t.phase = .active) ∨
      (t.status = .needMoreOutput ∧ t.phase = .active) ∨
      (t.status = .corruptStream ∧ t.phase = .failed))

/-- The phases (spec R20): their codes, what enters and what leaves each. The reset and every INIT that starts lead to
`NoSession`, a failed INIT stays there, a successful one leads to `Active`; a DECODE that finds the output complete leads
to `Done`, one that ends with `CorruptStream` to `Failed`; nothing else changes `PHASE`, no host access either. That these
events are steps, told by `activity`, is the model's choice (log entries 2, 3). -/
def Obligations.PhaseMoves : Prop :=
  (Phase.noSession.code = 0 ∧ Phase.active.code = 1 ∧ Phase.done.code = 2 ∧ Phase.failed.code = 3) ∧
  (∀ s t : State, hostReset s = .next t → t.phase = .noSession) ∧
  (∀ s t : State, ((∃ index v, hostWrite index v s = .next t) ∨ (∃ index v, hostRead index s = .next (t, v)) ∨
    (∃ offset b, hostStore offset b s = .next t)) → t.phase = s.phase) ∧
  ∀ s t : State, Inv s → step s = .next t →
    (s.activity = .idle → s.cmd = 1 → t.phase = .noSession) ∧
    (s.activity = .init → t.status ≠ .ok → t.phase = .noSession) ∧
    (s.activity = .init → t.status = .ok → t.phase = .active) ∧
    (s.activity = .decode → s.outCur = s.decompSize → t.phase = .done ∧ t.status = .done) ∧
    (s.activity = .decode ∨ s.activity = .symbol → t.activity = .idle → t.status = .corruptStream →
      t.phase = .failed) ∧
    (t.phase ≠ s.phase →
      (t.phase = .noSession ∧ s.activity = .idle ∧ s.cmd = 1) ∨
      (s.phase = .noSession ∧ t.phase = .active ∧ s.activity = .init ∧ t.status = .ok) ∨
      (s.phase = .active ∧ t.phase = .done ∧ s.activity = .decode ∧ s.outCur = s.decompSize ∧ t.status = .done) ∨
      (s.phase = .active ∧ t.phase = .failed ∧ s.activity ≠ .idle ∧ s.activity ≠ .init ∧
        t.status = .corruptStream))

/-- The session configuration is written by a successful INIT only (spec R11). -/
def Obligations.SessionConstant : Prop :=
  ∀ s t : State, step s = .next t →
    (s.activity = .init ∧ t.status = .ok ∧ t.phase = .active) ∨
    (t.inBase = s.inBase ∧ t.totalLen = s.totalLen ∧ t.hdrOff = s.hdrOff ∧ t.dataStart = s.dataStart ∧
      t.decompSize = s.decompSize ∧ t.inMask = s.inMask ∧ t.outMask = s.outMask ∧ t.invMaskIn = s.invMaskIn ∧
      t.invMaskOut = s.invMaskOut ∧ t.lenBytes = s.lenBytes ∧ t.chunked = s.chunked)

/-- No step writes `IN`, a ROM, an argument register or `OUT_BASE` (spec R25, R26, R46, R23), and none writes `ACC`. That
`ACC` is never loaded is the model's choice, which R27 leaves to a model ("A model may leave both out") and which the
refill policy of R87 does not make (log entry 15). -/
def Obligations.StepLeavesHostData : Prop :=
  ∀ s t : State, step s = .next t →
    t.inMem = s.inMem ∧ t.shortRom = s.shortRom ∧ t.longRom = s.longRom ∧ t.arg0 = s.arg0 ∧ t.arg1 = s.arg1 ∧
      t.arg2 = s.arg2 ∧ t.arg3 = s.arg3 ∧ t.outBase = s.outBase ∧ t.acc = s.acc

/-- The engine has no fault of its own (spec R139): no step faults, and a step refuses only the INIT that the spec leaves
unspecified (D37; the refusal: log entry 7). -/
def Obligations.StepNeverFaults : Prop :=
  ∀ s : State, (∃ t, step s = .next t) ∨
    (s.activity = .idle ∧ s.cmd = 1 ∧ s.arg1.toNat ≥ 2 ^ 63 ∧ step s = .refused .totalLenTooLarge)

/-- `OUT_CUR` (spec R13): a successful INIT sets it to 0, a committed symbol adds its length, nothing else changes it. -/
def Obligations.OutCursorMoves : Prop :=
  ∀ s t : State, Inv s → step s = .next t →
    (s.activity = .idle → t.outCur = s.outCur) ∧
    (s.activity = .init → if t.status = .ok then t.outCur = 0 else t.outCur = s.outCur) ∧
    (s.activity = .decode ∨ s.activity = .symbol →
      (t.outCur = s.outCur ∧ t.activity ≠ .decode) ∨
      (t.activity = .decode ∧ ∃ i s', fetch s = .run i s' ∧
        ((∃ length distance, matchOperands s.format i = some (length, distance) ∧
            t.outCur.toNat = s.outCur.toNat + length) ∨
          (∃ length, literalOperand s.format i = some length ∧ t.outCur.toNat = s.outCur.toNat + length))))

/-- What the engine reads of `IN` (spec R36): nothing when it takes up a command, only the header in an INIT, and in a
DECODE only positions from `IN_BYTE` up to `AVAIL_IN`. Another content elsewhere changes nothing. -/
def Obligations.InputReadSet : Prop :=
  ∀ (s t : State) (m : Memory), Inv s → step s = .next t →
    (match s.activity with
      | .idle => True
      | .init => ∀ p, s.arg2.toNat ≤ p → p < s.arg2.toNat + s.arg3.toNat → m.read p = s.inMem.read p
      | .decode | .symbol => ∀ p, s.inByte.toNat ≤ p → p < s.availIn.toNat →
          m.read (offsetOf p s.inMask.toNat) = s.inMem.read (offsetOf p s.inMask.toNat)) →
    step { s with inMem := m } = .next { t with inMem := m }

/-- What the engine writes of `OUT` (spec R37, R39): only output positions from the old cursor up to the new one, which
the host has granted. -/
def Obligations.OutputWriteSet : Prop :=
  ∀ s t : State, Inv s → step s = .next t →
    (∀ a, (∀ p, s.outCur.toNat ≤ p → p < t.outCur.toNat → a ≠ offsetOf p s.outMask.toNat) →
      t.outMem.read a = s.outMem.read a) ∧
    (t.outMem ≠ s.outMem → t.outCur.toNat ≤ s.availOut.toNat ∧ t.outCur.toNat ≤ s.decompSize.toNat)

/-- What the engine reads of `OUT` (spec R37): only live positions below `OUT_CUR`, which it has itself written. Another
content elsewhere changes no register, and the live bytes after the step are the same. -/
def Obligations.OutputReadSet : Prop :=
  ∀ (s t : State) (m : Memory), Inv s → s.activity = .decode ∨ s.activity = .symbol → m.wf →
    (∀ q, q < s.outCur.toNat → s.outCur.toNat ≤ q + s.outMask.toNat + 1 →
      m.read (offsetOf q s.outMask.toNat) = s.outMem.read (offsetOf q s.outMask.toNat)) →
    step s = .next t →
      ∃ m', step { s with outMem := m } = .next { t with outMem := m' } ∧
        ∀ q, q < t.outCur.toNat → t.outCur.toNat ≤ q + t.outMask.toNat + 1 →
          m'.read (offsetOf q t.outMask.toNat) = t.outMem.read (offsetOf q t.outMask.toNat)

/-- Progress (spec R103): a committed symbol adds at least 1 to `OUT_CUR` and at least 10 bits to the input cursor, which
never passes the frame's end. -/
def Obligations.SymbolProgress : Prop :=
  ∀ s t : State, Inv s → s.activity = .decode ∨ s.activity = .symbol → step s = .next t → t.activity = .decode →
    s.outCur.toNat + 1 ≤ t.outCur.toNat ∧ t.outCur.toNat ≤ s.decompSize.toNat ∧
      8 * s.inByte.toNat + s.inBitoff.toNat + 10 ≤ 8 * t.inByte.toNat + t.inBitoff.toNat ∧
      8 * t.inByte.toNat + t.inBitoff.toNat ≤ 8 * s.totalLen.toNat

/-- A DECODE ends (spec R78): within two steps for each byte still to be produced and one more, with one of the four
statuses of R126. The factor two is the model's: CONT is a step of its own (log entries 2, 3). -/
def Obligations.DecodeTerminates : Prop :=
  ∀ s : State, Inv s → s.activity = .decode →
    ∃ k t, k ≤ 2 * (s.decompSize.toNat - s.outCur.toNat) + 1 ∧ Host.Core.run Sys2Proof.core k s = .next t ∧
      t.busy = false ∧
      (t.status = .done ∨ t.status = .needMoreInput ∨ t.status = .needMoreOutput ∨ t.status = .corruptStream)

/-- The steps of a DECODE do what `decode_loop` with atomic symbol steps does (spec R78, R89), the crossing before a
symbol's first bit inside the symbol. The steps are the model's (log entries 2, 3). -/
def Obligations.StepsAreDecodeLoop : Prop :=
  ∀ (s : State) (fuel : Nat), Inv s → s.activity = .decode →
    s.decompSize.toNat - s.outCur.toNat + 1 ≤ fuel → CommandRuns s (decodeLoop fuel s)

/-- Resumption (spec R88, R131): a DECODE with less input or room followed by one with more leaves the state that the
second alone would have left. -/
def Obligations.ResumedDecode : Prop :=
  ∀ (s t u : State) (ai ai' ao ao' : Word), Inv s → s.busy = false → s.phase = .active →
    ai.toNat ≤ ai'.toNat → ao.toNat ≤ ao'.toNat →
    CommandRuns (issueDecode ai ao s) t → CommandRuns (issueDecode ai' ao' t) u →
      CommandRuns (issueDecode ai' ao' s) u

/-- Liveness with a host that keeps the rings (spec R114): its DECODE commits at least one symbol, or returns `Done`, or
`CorruptStream`. -/
def Obligations.RingHostProgress : Prop :=
  ∀ (s t : State) (ai ao : Word), Inv s → s.busy = false → s.phase = .active →
    ai.toNat = min (s.inByte.toNat + s.inMask.toNat + 1) s.totalLen.toNat →
    ao.toNat = min (s.outCur.toNat + s.outMask.toNat + 1) s.decompSize.toNat →
    CommandRuns (issueDecode ai ao s) t →
      s.outCur.toNat < t.outCur.toNat ∨ t.status = .done ∨ t.status = .corruptStream

/-- The copy through the pending list is the copy in place, byte by byte (spec R97, R44). -/
def Obligations.PendingIsInPlace : Prop :=
  ∀ (m : Memory) (mask c distance n : Nat), m.wf → IsWindowMask mask → 1 ≤ distance → distance ≤ c →
    distance ≤ mask + 1 →
      m.writeAll (pendingWrites mask c (matchBytes m mask c distance n)) = copyInPlace mask c distance n m

/-! ### The host's side -/

/-- Host reads at a command boundary (spec R22, R23, R24, R31): the seven status codes; the registers at their indices;
the byte of `OUT` at an offset. Without a session the indices 17 to 33 answer some value, of which nothing is said, and
only the model's count of such reads moves (log entry 8); an index without a register is a fault (log entry 9). -/
def Obligations.HostReads : Prop :=
  (Status.ok.code = 0 ∧ Status.done.code = 1 ∧ Status.needMoreInput.code = 2 ∧ Status.needMoreOutput.code = 3 ∧
    Status.corruptStream.code = 4 ∧ Status.headerTruncated.code = 5 ∧ Status.noSession.code = 6) ∧
  ∀ s : State, s.busy = false →
    hostRead 0 s = .next (s, 0) ∧ hostRead 1 s = .next (s, s.arg0) ∧ hostRead 2 s = .next (s, s.arg1) ∧
    hostRead 3 s = .next (s, s.arg2) ∧ hostRead 4 s = .next (s, s.arg3) ∧
    hostRead 5 s = .next (s, s.status.code.zeroExtend 64) ∧ hostRead 6 s = .next (s, s.ret0) ∧
    hostRead 7 s = .next (s, s.outBase) ∧ hostRead 16 s = .next (s, s.phase.code.zeroExtend 64) ∧
    (s.phase ≠ .noSession →
      hostRead 17 s = .next (s, s.totalLen) ∧ hostRead 18 s = .next (s, s.hdrOff) ∧
      hostRead 19 s = .next (s, s.dataStart) ∧ hostRead 20 s = .next (s, s.decompSize) ∧
      hostRead 21 s = .next (s, s.inMask) ∧ hostRead 22 s = .next (s, s.outMask) ∧
      hostRead 23 s = .next (s, s.invMaskIn) ∧ hostRead 24 s = .next (s, s.invMaskOut) ∧
      hostRead 25 s = .next (s, s.lenBytes.zeroExtend 64) ∧
      hostRead 26 s = .next (s, if s.chunked then 1 else 0) ∧ hostRead 27 s = .next (s, s.inByte) ∧
      hostRead 28 s = .next (s, s.inBitoff.zeroExtend 64) ∧ hostRead 29 s = .next (s, s.outCur) ∧
      hostRead 30 s = .next (s, s.reqIn) ∧ hostRead 31 s = .next (s, s.nextBnd) ∧
      hostRead 32 s = .next (s, BitVec.ofNat 64 (reqOut s)) ∧ hostRead 33 s = .next (s, s.inBase)) ∧
    (s.phase = .noSession → ∀ index, 17 ≤ index → index ≤ 33 →
      ∃ v, hostRead index s = .next ({ s with freeCount := s.freeCount + 1 }, v)) ∧
    (∀ index, (8 ≤ index ∧ index ≤ 15) ∨ 34 ≤ index → hostRead index s = .fault (.noSuchRegister index)) ∧
    (∀ offset : Word, hostFetch offset s = .next (s.outMem.read offset.toNat))

/-- Host writes at a command boundary (spec R23, R24, R30, R59): `ARG0` to `ARG3` and `OUT_BASE` take the low 64 bits; `CMD`
1 and 2 issue a command, 0 and 3 do nothing; the other registers may not be written, which the model refuses, and an
index without a register is a fault (log entry 9). A byte written to `IN` is what that offset then reads as; every other
offset and all other state are as before. -/
def Obligations.HostWrites : Prop :=
  ∀ (s : State) (v : Nat), s.busy = false →
    hostWrite 1 v s = .next { s with arg0 := BitVec.ofNat 64 v } ∧
    hostWrite 2 v s = .next { s with arg1 := BitVec.ofNat 64 v } ∧
    hostWrite 3 v s = .next { s with arg2 := BitVec.ofNat 64 v } ∧
    hostWrite 4 v s = .next { s with arg3 := BitVec.ofNat 64 v } ∧
    hostWrite 7 v s = .next { s with outBase := BitVec.ofNat 64 v } ∧
    (v % 4 = 1 → hostWrite 0 v s = .next { s with cmd := 1 }) ∧
    (v % 4 = 2 → hostWrite 0 v s = .next { s with cmd := 2 }) ∧
    (v % 4 = 0 ∨ v % 4 = 3 → hostWrite 0 v s = .next s) ∧
    (∀ index, index = 5 ∨ index = 6 ∨ (16 ≤ index ∧ index ≤ 33) →
      hostWrite index v s = .refused (.readOnlyRegister index)) ∧
    (∀ index, (8 ≤ index ∧ index ≤ 15) ∨ 34 ≤ index → hostWrite index v s = .fault (.noSuchRegister index)) ∧
    (s.inMem.wf → ∀ (offset : Word) (b : Byte), ∃ t, hostStore offset b s = .next t ∧
      t.inMem.read offset.toNat = b ∧ (∀ a, a ≠ offset.toNat → t.inMem.read a = s.inMem.read a) ∧
      t.inMem.wf ∧ t = { s with inMem := t.inMem })

/-- During a command the host's accesses are refused (spec R42, R144, U4; log entry 10). That the reset is refused with them,
and that a command counts from its issue on, rests on R142 and U10 and is the model's reading (log entries 10, 18). -/
def Obligations.HostKeptOut : Prop :=
  ∀ s : State, s.busy = true →
    (∀ index, hostRead index s = .refused .commandInProgress) ∧
    (∀ index v, hostWrite index v s = .refused .commandInProgress) ∧
    (∀ offset b, hostStore offset b s = .refused .commandInProgress) ∧
    (∀ offset, hostFetch offset s = .refused .commandInProgress) ∧ hostReset s = .refused .commandInProgress

/-- The host's reset (spec R140, R141): no session, `STATUS` 6, `RET0` 0; memories and ROMs as they were; a DECODE then
returns `NoSession` and changes nothing else. -/
def Obligations.ResetThenDecode : Prop :=
  ∀ s : State, s.busy = false → ∃ t, hostReset s = .next t ∧ t.phase = .noSession ∧ t.status = .noSession ∧
    t.ret0 = 0 ∧ t.fsm = .readSymbol ∧ t.nbits = 0 ∧ t.inMem = s.inMem ∧ t.outMem = s.outMem ∧
    t.shortRom = s.shortRom ∧ t.longRom = s.longRom ∧
    ∀ ai ao, CommandRuns (issueDecode ai ao t) { t with arg0 := ai, arg1 := ao, status := .noSession }

end
end

