-- ==== Sys2Proof/Laws/BitReader.lean ====
section
/-! SUPPORT. What the BitReader's functions can do, said once: when a fetch answers, what it answers, and what every read
keeps of the working copy. -/

namespace Sys2Proof.Machine

/-! ### The three checks -/

/-- A byte passes the checks of R82 exactly when it is inside the window, the frame and the available input. -/
theorem byteChecks_eq_none {e : Env} {p : Nat} :
    byteChecks e p = none ↔ (e.inMask = all1 ∨ p < e.base + e.inMask + 1) ∧ p < e.total ∧ p < e.avail := by
  unfold byteChecks; split_ifs <;> simp <;> omega

/-- The field passes checks (a), (b), (c) of R110 exactly when its last byte does. -/
theorem contChecks_eq_none {e : Env} {w : Work} :
    contChecks e w = none ↔ w.nextBnd + e.lenBytes ≤ e.base + e.inMask + 1 ∧ w.nextBnd + e.lenBytes ≤ e.total ∧
      w.nextBnd + e.lenBytes ≤ e.avail := by
  unfold contChecks; split_ifs <;> simp <;> omega

/-- What check (d) of R110 answers when it passes. -/
theorem contApply_eq_ok {e : Env} {v : Nat} {w w' : Work} :
    contApply e v w = .ok w' ↔ w.nextBnd + e.lenBytes + v ≤ min (w.nextBnd + e.stride) e.total ∧
      w' = { w with inByte := w.nextBnd + e.lenBytes, nextBnd := w.nextBnd + e.stride,
                    reqIn := w.nextBnd + e.lenBytes + v } := by
  unfold contApply; split_ifs with h
  · simp; omega
  · simp only [Except.ok.injEq]
    exact ⟨fun e => ⟨by omega, e.symm⟩, fun e => e.2.symm⟩

/-- The only status of check (d) is `CorruptStream`. -/
theorem contApply_eq_error {e : Env} {v : Nat} {w : Work} {st : Status} (h : contApply e v w = .error st) :
    st = .corruptStream := by
  unfold contApply at h; split_ifs at h; simpa using h.symm

/-! ### Crossing and fetching -/

/-- What a crossing answers when it answers (spec R110). -/
theorem crossBoundary_eq_ok {m : Memory} {e : Env} {w w' : Work} (h : crossBoundary m e w = .ok w') :
    contChecks e w = none ∧ ∃ v, contApply e v w = .ok w' := by
  unfold crossBoundary readCont at h
  cases hc : contChecks e w with
  | some st => simp [hc] at h
  | none => exact ⟨rfl, _, by simpa [hc] using h⟩

/-- Off a boundary a fetch does not cross. -/
@[simp] theorem crossIfNeeded_of_not_onBoundary {m : Memory} {e : Env} {w : Work} (h : onBoundary e w = false) :
    crossIfNeeded m e w = .ok w := by simp [crossIfNeeded, h]

/-- A session without chunks never crosses (spec R115). -/
theorem onBoundary_of_not_chunked {e : Env} {w : Work} (h : e.chunked = false) : onBoundary e w = false := by
  simp [onBoundary, h]

/-- When FetchByte answers: the crossing, if any, answered, and the byte passed its checks. -/
theorem fetchByte_eq_ok {m : Memory} {e : Env} {w w' : Work} {b : Byte} :
    fetchByte m e w = .ok (b, w') ↔
      crossIfNeeded m e w = .ok w' ∧ byteChecks e w'.inByte = none ∧ b = m.read (offsetOf w'.inByte e.inMask) := by
  unfold fetchByte
  cases hc : crossIfNeeded m e w with
  | error st => simp
  | ok w1 =>
    cases hb : byteChecks e w1.inByte with
    | some st =>
      simp only [hb, reduceCtorEq, Except.ok.injEq, false_iff, not_and]
      rintro rfl; simp [hb]
    | none =>
      simp only [hb, Except.ok.injEq, Prod.mk.injEq]
      constructor
      · rintro ⟨rfl, rfl⟩; exact ⟨rfl, hb, rfl⟩
      · rintro ⟨rfl, -, rfl⟩; exact ⟨rfl, rfl⟩

/-- One turn of `take` is a fetch and an advance. -/
theorem takeBit_eq_ok {m : Memory} {e : Env} {w w' : Work} {v : Nat} (h : takeBit m e w = .ok (v, w')) :
    ∃ b w1, fetchByte m e w = .ok (b, w1) ∧ v = b.toNat >>> w1.bitOff % 2 ∧ w' = advanceBit w1 := by
  unfold takeBit at h
  cases hf : fetchByte m e w with
  | error st => simp [hf] at h
  | ok p =>
    obtain ⟨b, w1⟩ := p
    simp only [hf, Except.ok.injEq, Prod.mk.injEq] at h
    exact ⟨b, w1, rfl, h.1.symm, h.2.symm⟩

/-- `take_byte` is a fetch and a move to the next byte. -/
theorem takeByte_eq_ok {m : Memory} {e : Env} {w w' : Work} {b : Byte} (h : takeByte m e w = .ok (b, w')) :
    ∃ w1, fetchByte m e w = .ok (b, w1) ∧ w' = { w1 with inByte := w1.inByte + 1 } := by
  unfold takeByte at h
  cases hf : fetchByte m e w with
  | error st => simp [hf] at h
  | ok p =>
    obtain ⟨c, w1⟩ := p
    simp only [hf, Except.ok.injEq, Prod.mk.injEq] at h
    obtain ⟨rfl, rfl⟩ := h
    exact ⟨w1, rfl, rfl⟩

/-- `take(n + 1)` is one bit and then `take(n)`. -/
theorem take_succ_eq_ok {m : Memory} {e : Env} {n v : Nat} {w w' : Work} (h : take m e (n + 1) w = .ok (v, w')) :
    ∃ b w1 v', takeBit m e w = .ok (b, w1) ∧ take m e n w1 = .ok (v', w') ∧ v = b + 2 * v' := by
  unfold take at h
  cases hb : takeBit m e w with
  | error st => simp [hb] at h
  | ok p =>
    obtain ⟨b, w1⟩ := p
    cases ht : take m e n w1 with
    | error st => simp [hb, ht] at h
    | ok q =>
      obtain ⟨v', w2⟩ := q
      simp only [hb, ht, Except.ok.injEq, Prod.mk.injEq] at h
      obtain ⟨rfl, rfl⟩ := h
      exact ⟨b, w1, v', rfl, ht, rfl⟩

/-- The value of `take(n)` has n bits. -/
theorem take_lt {m : Memory} {e : Env} {n v : Nat} {w w' : Work} (h : take m e n w = .ok (v, w')) : v < 2 ^ n := by
  induction n generalizing w v with
  | zero => simp [take] at h; omega
  | succ n ih =>
    obtain ⟨b, w1, v', hb, ht, rfl⟩ := take_succ_eq_ok h
    obtain ⟨c, w2, -, rfl, -⟩ := takeBit_eq_ok hb
    have := ih ht
    have : c.toNat >>> w2.bitOff % 2 < 2 := Nat.mod_lt _ (by omega)
    rw [pow_succ]; omega

/-- What `take_bytes` of a longer run does. -/
theorem takeBytes_succ_eq_ok {m : Memory} {e : Env} {n : Nat} {w w' : Work} {bs : List Byte}
    (h : takeBytes m e (n + 1) w = .ok (bs, w')) :
    ∃ b w1 bs', takeByte m e w = .ok (b, w1) ∧ takeBytes m e n w1 = .ok (bs', w') ∧ bs = b :: bs' := by
  unfold takeBytes at h
  cases hb : takeByte m e w with
  | error st => simp [hb] at h
  | ok p =>
    obtain ⟨b, w1⟩ := p
    cases ht : takeBytes m e n w1 with
    | error st => simp [hb, ht] at h
    | ok q =>
      obtain ⟨bs', w2⟩ := q
      simp only [hb, ht, Except.ok.injEq, Prod.mk.injEq] at h
      obtain ⟨rfl, rfl⟩ := h
      exact ⟨b, w1, bs', rfl, ht, rfl⟩

/-- A run of `n` bytes has length `n`. -/
theorem takeBytes_length {m : Memory} {e : Env} {n : Nat} {w w' : Work} {bs : List Byte}
    (h : takeBytes m e n w = .ok (bs, w')) : bs.length = n := by
  induction n generalizing w bs with
  | zero => simp [takeBytes] at h; simp [h.1.symm]
  | succ n ih =>
    obtain ⟨b, w1, bs', -, ht, rfl⟩ := takeBytes_succ_eq_ok h
    simp [ih ht]

/-! ### A property that every move of the cursor keeps -/

/-- A property of the working copy that a fetch followed by a move, and an alignment, keep. -/
structure CursorInv (m : Memory) (e : Env) (P : Work → Prop) : Prop where
  bit : ∀ {w w' b}, P w → fetchByte m e w = .ok (b, w') → P (advanceBit w')
  byte : ∀ {w w' b}, P w → fetchByte m e w = .ok (b, w') → w.bitOff = 0 → P { w' with inByte := w'.inByte + 1 }
  align : ∀ {w}, P w → P (alignWork w)

/-- `take` keeps it. -/
theorem CursorInv.take {m : Memory} {e : Env} {P : Work → Prop} (hP : CursorInv m e P) {n v : Nat} {w w' : Work}
    (hw : P w) (h : Machine.take m e n w = .ok (v, w')) : P w' := by
  induction n generalizing w v with
  | zero => simp [Machine.take] at h; exact h.2 ▸ hw
  | succ n ih =>
    obtain ⟨b, w1, v', hb, ht, -⟩ := take_succ_eq_ok h
    obtain ⟨c, w2, hf, -, rfl⟩ := takeBit_eq_ok hb
    exact ih (hP.bit hw hf) ht

/-- A crossing leaves the bit offset. -/
theorem fetchByte_bitOff {m : Memory} {e : Env} {w w' : Work} {b : Byte} (h : fetchByte m e w = .ok (b, w')) :
    w'.bitOff = w.bitOff := by
  obtain ⟨hc, -, -⟩ := fetchByte_eq_ok.1 h
  unfold crossIfNeeded at hc
  split at hc
  · obtain ⟨-, v, hv⟩ := crossBoundary_eq_ok hc
    rw [(contApply_eq_ok.1 hv).2]
  · exact congrArg Work.bitOff (Except.ok.inj hc).symm

/-- A run of whole bytes at an aligned cursor keeps it, and stays aligned. -/
theorem CursorInv.takeBytes {m : Memory} {e : Env} {P : Work → Prop} (hP : CursorInv m e P) {n : Nat} {w w' : Work}
    {bs : List Byte} (hw : P w) (h0 : w.bitOff = 0) (h : Machine.takeBytes m e n w = .ok (bs, w')) :
    P w' ∧ w'.bitOff = 0 := by
  induction n generalizing w bs with
  | zero => simp [Machine.takeBytes] at h; exact h.2 ▸ ⟨hw, h0⟩
  | succ n ih =>
    obtain ⟨b, w1, bs', hb, ht, -⟩ := takeBytes_succ_eq_ok h
    obtain ⟨w2, hf, rfl⟩ := takeByte_eq_ok hb
    exact ih (hP.byte hw hf h0) (by simpa [h0] using fetchByte_bitOff hf) ht

/-- Descriptions that read whole bytes only where the cursor is aligned: none at all. -/
inductive BitsOnly {α : Type} : Parse α → Prop where
  | done (a : α) : BitsOnly (.done a)
  | take (n : Nat) (k : Nat → Parse α) (h : ∀ v, BitsOnly (k v)) : BitsOnly (.take n k)
  | align (k : Parse α) (h : BitsOnly k) : BitsOnly (.align k)

/-- Running a description of bit fields keeps it. -/
theorem CursorInv.runParse {α : Type} {m : Memory} {e : Env} {P : Work → Prop} (hP : CursorInv m e P) {p : Parse α}
    (hp : BitsOnly p) {w w' : Work} {a : α} (hw : P w) (h : Machine.runParse m e p w = .ok (a, w')) : P w' := by
  induction hp generalizing w with
  | done a => simp [Machine.runParse] at h; exact h.2 ▸ hw
  | take n k _ ih =>
    unfold Machine.runParse at h
    cases ht : Machine.take m e n w with
    | error st => simp [ht] at h
    | ok q =>
      obtain ⟨v, w1⟩ := q
      exact ih v (hP.take hw ht) (by simpa [ht] using h)
  | align k _ ih => exact ih (hP.align hw) (by simpa [Machine.runParse] using h)

/-- The optional field is a description of bit fields. -/
theorem BitsOnly.takeOpt {α : Type} (n : Nat) (k : Nat → Parse α) (h : ∀ v, BitsOnly (k v)) :
    BitsOnly (Parse.takeOpt n k) := by
  unfold Parse.takeOpt; split
  · exact h 0
  · exact .take _ _ h

/-- The distance is read as bit fields. -/
theorem BitsOnly.readDistance {α : Type} (k : BitVec 5 → BitVec 31 → Parse α) (h : ∀ a b, BitsOnly (k a b)) :
    BitsOnly (Sys2Proof.readDistance k) :=
  .take _ _ fun _ => .takeOpt _ _ fun _ => h _ _

/-- A symbol's fields are bit fields (spec R52). -/
theorem bitsOnly_symbolParse (f : Format) : BitsOnly (symbolParse f) := by
  refine .take _ _ fun sel => ?_
  split
  · refine .take _ _ fun idx => ?_
    split
    · exact .take _ _ fun x => .readDistance _ fun _ _ => .done _
    · exact .takeOpt _ _ fun x => .readDistance _ fun _ _ => .done _
  · refine .take _ _ fun idx => .takeOpt _ _ fun x => ?_
    split
    · exact .done _
    · exact .readDistance _ fun _ _ => .done _

/-! ### The invariant of a symbol step's working copy -/

/-- What holds of W at every instant of a symbol step (spec R12, R14 to R16), `base` being where it began. -/
structure ReaderInv (e : Env) (w : Work) : Prop where
  bitOff : w.bitOff < 8
  le_total : w.inByte ≤ e.total
  lt_total : w.bitOff ≠ 0 → w.inByte < e.total
  base_le : e.base ≤ w.inByte
  reqIn_le : w.reqIn ≤ e.total
  chunk : e.chunked = true → w.inByte ≤ w.nextBnd ∧ (w.inByte = w.nextBnd → w.bitOff = 0) ∧ e.stride ∣ w.nextBnd ∧
    w.nextBnd ≤ w.inByte + e.stride ∧ w.reqIn ≤ w.nextBnd

/-- The environment of a session: the field is shorter than a chunk and not empty. -/
structure EnvInv (e : Env) : Prop where
  field : e.chunked = true → 1 ≤ e.lenBytes ∧ e.lenBytes < e.stride

/-- A fetch keeps the invariant, and the byte fetched lies before the next boundary. -/
theorem ReaderInv.fetch {m : Memory} {e : Env} (he : EnvInv e) {w w' : Work} {b : Byte} (hw : ReaderInv e w)
    (h : fetchByte m e w = .ok (b, w')) :
    ReaderInv e w' ∧ w'.inByte < e.total ∧ (e.chunked = true → w'.inByte < w'.nextBnd) := by
  obtain ⟨hc, hb, -⟩ := fetchByte_eq_ok.1 h
  obtain ⟨-, ht, -⟩ := byteChecks_eq_none.1 hb
  unfold crossIfNeeded at hc
  split at hc
  · rename_i hon
    obtain ⟨hch, v, hv⟩ := crossBoundary_eq_ok hc
    obtain ⟨hd, rfl⟩ := contApply_eq_ok.1 hv
    simp only [onBoundary, Bool.and_eq_true, beq_iff_eq] at hon
    obtain ⟨hck, hat⟩ := hon
    obtain ⟨h1, h2, h3, h4, h5⟩ := hw.chunk hck
    obtain ⟨f1, f2⟩ := he.field hck
    obtain ⟨c1, c2, c3⟩ := contChecks_eq_none.1 hch
    have h0 := h2 hat
    have hbase := hw.base_le
    refine ⟨⟨by simp [h0], ?_, ?_, ?_, ?_, fun _ => ⟨?_, ?_, ?_, ?_, ?_⟩⟩, ht, fun _ => ?_⟩ <;>
      (try simp only at *) <;> try omega
    · exact (Nat.dvd_add_self_right).2 h3
  · rename_i hon
    obtain rfl := Except.ok.inj hc
    refine ⟨hw, ht, fun hck => ?_⟩
    obtain ⟨h1, h2, h3, h4, h5⟩ := hw.chunk hck
    simp only [onBoundary, hck, Bool.true_and, beq_iff_eq] at hon
    omega

/-- Every read of a symbol step keeps the invariant of its working copy. -/
theorem ReaderInv.cursorInv {m : Memory} {e : Env} (he : EnvInv e) : CursorInv m e (ReaderInv e) where
  bit := by
    intro w w' b hw h
    obtain ⟨hw', ht, hn⟩ := hw.fetch he h
    obtain ⟨h1, h2, h3, h4, h5, h6⟩ := hw'
    unfold advanceBit; split
    · refine ⟨by simp, by simpa using ht, by simp, by simp only; omega, h5, fun hck => ?_⟩
      obtain ⟨c1, c2, c3, c4, c5⟩ := h6 hck
      have := hn hck
      exact ⟨by simp only; omega, by simp, c3, by simp only; omega, c5⟩
    · refine ⟨by simp only; omega, h2, fun _ => ht, h4, h5, fun hck => ?_⟩
      obtain ⟨c1, c2, c3, c4, c5⟩ := h6 hck
      have := hn hck
      exact ⟨c1, by simp only; omega, c3, c4, c5⟩
  byte := by
    intro w w' b hw h h0
    have hb := fetchByte_bitOff h
    obtain ⟨hw', ht, hn⟩ := hw.fetch he h
    obtain ⟨h1, h2, h3, h4, h5, h6⟩ := hw'
    refine ⟨h1, by simp only; omega, fun hne => absurd (hb.trans h0) hne, by simp only; omega, h5, fun hck => ?_⟩
    obtain ⟨c1, c2, c3, c4, c5⟩ := h6 hck
    have := hn hck
    exact ⟨by simp only; omega, fun _ => hb.trans h0, c3, by simp only; omega, c5⟩
  align := by
    intro w hw
    unfold alignWork; split
    · exact hw
    · rename_i hne
      obtain ⟨h1, h2, h3, h4, h5, h6⟩ := hw
      have := h3 hne
      refine ⟨by simp, by simp only; omega, by simp, by simp only; omega, h5, fun hck => ?_⟩
      obtain ⟨c1, c2, c3, c4, c5⟩ := h6 hck
      have : w.inByte ≠ w.nextBnd := fun e => hne (c2 e)
      exact ⟨by simp only; omega, by simp, c3, by simp only; omega, c5⟩

end Sys2Proof.Machine
end

