-- ==== Sys2Proof/Laws/Decode.lean ====
section
/-! SUPPORT. The lemmas of the bit-level decoder: a field written is a field read, and what a read field was. -/

namespace Sys2Proof

/-- A written field reads back, reduced to its width. -/
theorem takeBits_natBits (n v : Nat) (rest : List Bool) : takeBits n (natBits n v ++ rest) = some (v % 2 ^ n, rest) := by
  induction n generalizing v with
  | zero => simp [natBits, takeBits, Nat.mod_one]
  | succ n ih =>
    simp only [natBits, List.cons_append, takeBits, ih, Nat.pow_succ]
    have h : (decide (v % 2 = 1)).toNat = v % 2 := by
      rcases Nat.mod_two_eq_zero_or_one v with h | h <;> simp [h]
    rw [h, Nat.mul_comm (2 ^ n) 2, Nat.mod_mul]

/-- A value within its width reads back. -/
theorem takeBits_natBits_of_lt {n v : Nat} (rest : List Bool) (h : v < 2 ^ n) :
    takeBits n (natBits n v ++ rest) = some (v, rest) := by
  rw [takeBits_natBits, Nat.mod_eq_of_lt h]

/-- What a field that was read is: its value is within its width and its bits are the value's. -/
theorem takeBits_eq_some {n v : Nat} {bs rest : List Bool} (h : takeBits n bs = some (v, rest)) :
    v < 2 ^ n ∧ bs = natBits n v ++ rest := by
  induction n generalizing v bs with
  | zero =>
    simp only [takeBits, Option.some.injEq, Prod.mk.injEq] at h
    obtain ⟨rfl, rfl⟩ := h
    exact ⟨by simp, rfl⟩
  | succ n ih =>
    cases bs with
    | nil => simp [takeBits] at h
    | cons b bs =>
      simp only [takeBits] at h
      cases hr : takeBits n bs with
      | none => simp [hr] at h
      | some q =>
        obtain ⟨u, r⟩ := q
        simp only [hr, Option.some.injEq, Prod.mk.injEq] at h
        obtain ⟨rfl, rfl⟩ := h
        obtain ⟨hu, rfl⟩ := ih hr
        have h2 : (b.toNat + 2 * u) / 2 = u := by
          have := b.toNat_lt; omega
        have h1 : decide ((b.toNat + 2 * u) % 2 = 1) = b := by cases b <;> simp [Nat.add_mod]
        refine ⟨by have := b.toNat_lt; rw [Nat.pow_succ]; omega, ?_⟩
        simp only [natBits, List.cons_append, h1, h2]

/-- A read fails exactly when bits are missing. -/
theorem takeBits_eq_none {n : Nat} {bs : List Bool} : takeBits n bs = none ↔ bs.length < n := by
  induction n generalizing bs with
  | zero => simp [takeBits]
  | succ n ih =>
    cases bs with
    | nil => simp [takeBits]
    | cons b bs =>
      simp only [takeBits]
      cases h : takeBits n bs with
      | none => simpa using ih.1 h
      | some q =>
        have : ¬ bs.length < n := fun hl => by rw [ih.2 hl] at h; cases h
        simpa using this

/-- A field of known width, read by a description. -/
theorem runBits_take {α : Type} {n v : Nat} (k : Nat → Parse α) (pos : Nat) (rest : List Bool) (h : v < 2 ^ n) :
    (Parse.take n k).runBits pos (natBits n v ++ rest) = (k v).runBits (pos + n) rest := by
  simp [Parse.runBits, takeBits_natBits_of_lt rest h]

/-- A field that is absent at width 0. -/
theorem runBits_takeOpt {α : Type} {n v : Nat} (k : Nat → Parse α) (pos : Nat) (rest : List Bool) (h : v < 2 ^ n) :
    (Parse.takeOpt n k).runBits pos (natBits n v ++ rest) = (k v).runBits (pos + n) rest := by
  unfold Parse.takeOpt
  split
  · rename_i h0; subst h0
    obtain rfl : v = 0 := by omega
    simp [natBits]
  · exact runBits_take k pos rest h

/-- The fields of a distance. -/
theorem runBits_readDistance {α : Type} (k : BitVec 5 → BitVec 31 → Parse α) (dn : BitVec 5) (df : BitVec 31) (pos : Nat)
    (rest : List Bool) (h : df.toNat < 2 ^ dn.toNat) :
    (readDistance k).runBits pos (encodeDistance dn df ++ rest) = (k dn df).runBits (pos + 5 + dn.toNat) rest := by
  unfold readDistance encodeDistance
  rw [List.append_assoc, runBits_take _ _ _ dn.isLt, runBits_takeOpt _ _ _ h]
  simp

end Sys2Proof
end

