-- ==== Sys2Proof/Laws/Memory.lean ====
section
/-! SUPPORT. The laws of the byte memories: a read after a write, the canonical form, and equal reads of equal memories. -/

namespace Sys2Proof.Machine

@[simp] theorem Memory.read_nil (a : Nat) : Memory.read [] a = Memory.blank := rfl

/-- Below every listed offset a memory reads blank. -/
theorem Memory.read_blank_of_lt (m : Memory) (a : Nat) (h : ∀ c ∈ m, a < c.1) : m.read a = Memory.blank := by
  induction m with
  | nil => rfl
  | cons c rest ih =>
    have hc := h c (by simp)
    simp only [Memory.read, if_neg (by omega : ¬ c.1 = a)]
    exact ih fun d hd => h d (by simp [hd])

/-- Every offset of a written memory is the one written or was listed. -/
theorem Memory.mem_write {m : Memory} {a : Nat} {b : Byte} {c : Host.Cell} (h : c ∈ m.write a b) :
    (c = (a, b) ∧ b ≠ Memory.blank) ∨ c ∈ m := by
  induction m with
  | nil =>
    by_cases hb : b = Memory.blank
    · simp [Memory.write, hb] at h
    · simp only [Memory.write, if_neg hb, List.mem_singleton] at h
      exact .inl ⟨h, hb⟩
  | cons d rest ih =>
    obtain ⟨k, v⟩ := d
    simp only [Memory.write] at h
    split_ifs at h with h1 hb h2 hb
    · exact .inr h
    · exact (List.mem_cons.1 h).imp (fun e => ⟨e, hb⟩) id
    · exact .inr (List.mem_cons_of_mem _ h)
    · exact (List.mem_cons.1 h).imp (fun e => ⟨e, hb⟩) (List.mem_cons_of_mem _)
    · rcases List.mem_cons.1 h with e | h
      · exact .inr (List.mem_cons.2 (.inl e))
      · exact (ih h).imp id (List.mem_cons_of_mem _)

/-- A write keeps the canonical form. -/
theorem Memory.write_wf {m : Memory} {a : Nat} {b : Byte} (hm : m.wf) (ha : a < 2 ^ 64) : (m.write a b).wf := by
  refine ⟨?_, fun c hc => ?_⟩
  · obtain ⟨hs, -⟩ := hm
    induction m with
    | nil => simp only [Memory.write]; split <;> simp
    | cons d rest ih =>
      obtain ⟨k, v⟩ := d
      rw [List.pairwise_cons] at hs
      simp only [Memory.write]
      split_ifs with h1 h2 h3 h4
      · exact List.pairwise_cons.2 hs
      · refine List.pairwise_cons.2 ⟨fun c hc => ?_, List.pairwise_cons.2 hs⟩
        rcases List.mem_cons.1 hc with rfl | hc
        · exact h1
        · exact lt_trans h1 (hs.1 c hc)
      · exact hs.2
      · exact List.pairwise_cons.2 ⟨fun c hc => h3 ▸ hs.1 c hc, hs.2⟩
      · refine List.pairwise_cons.2 ⟨fun c hc => ?_, ih hs.2⟩
        rcases Memory.mem_write hc with ⟨rfl, -⟩ | hc
        · simp only; omega
        · exact hs.1 c hc
  · rcases Memory.mem_write hc with ⟨rfl, hb⟩ | hc
    · exact ⟨ha, hb⟩
    · exact hm.2 c hc

/-- A read after a write to the same offset gives the byte written. -/
theorem Memory.read_write_same {m : Memory} (hm : m.wf) (a : Nat) (b : Byte) : (m.write a b).read a = b := by
  obtain ⟨hs, -⟩ := hm
  induction m with
  | nil => simp only [Memory.write]; split <;> simp_all [Memory.read]
  | cons d rest ih =>
    obtain ⟨k, v⟩ := d
    rw [List.pairwise_cons] at hs
    simp only [Memory.write]
    split_ifs with h1 h2 h3 h4
    · rw [h2]
      exact Memory.read_blank_of_lt _ _ fun c hc => by
        rcases List.mem_cons.1 hc with rfl | hc
        · exact h1
        · exact lt_trans h1 (hs.1 c hc)
    · simp [Memory.read]
    · rw [h4]; exact Memory.read_blank_of_lt _ _ fun c hc => h3 ▸ hs.1 c hc
    · simp [Memory.read]
    · simp only [Memory.read, if_neg (by omega : ¬ k = a)]; exact ih hs.2

/-- A write leaves every other offset. -/
theorem Memory.read_write_other (m : Memory) {a a' : Nat} (b : Byte) (h : a' ≠ a) : (m.write a b).read a' = m.read a' := by
  have h' : ¬ a = a' := fun e => h e.symm
  induction m with
  | nil => simp only [Memory.write]; split <;> simp [Memory.read, h']
  | cons d rest ih =>
    obtain ⟨k, v⟩ := d
    simp only [Memory.write]
    split_ifs with h1 h2 h3 h4
    · rfl
    · simp [Memory.read, h']
    · subst h3; simp [Memory.read, h']
    · subst h3; simp [Memory.read, h']
    · simp only [Memory.read]; split
      · rfl
      · exact ih

/-- Two memories in canonical form that read alike are equal. -/
theorem Memory.ext_of_read {m m' : Memory} (hm : m.wf) (hm' : m'.wf) (h : ∀ a, m.read a = m'.read a) : m = m' := by
  obtain ⟨hs, hb⟩ := hm
  obtain ⟨hs', hb'⟩ := hm'
  induction m generalizing m' with
  | nil =>
    cases m' with
    | nil => rfl
    | cons d r =>
      have := h d.1
      have hd := (hb' d (by simp)).2
      simp [Memory.read] at this
      exact absurd this.symm hd
  | cons c rest ih =>
    rw [List.pairwise_cons] at hs
    have hc := (hb c (by simp)).2
    cases m' with
    | nil =>
      have := h c.1
      simp [Memory.read] at this
      exact absurd this hc
    | cons d r =>
      rw [List.pairwise_cons] at hs'
      have hd := (hb' d (by simp)).2
      have key : c.1 = d.1 := by
        rcases lt_trichotomy c.1 d.1 with hlt | heq | hgt
        · have := h c.1
          rw [Memory.read_blank_of_lt (d :: r) c.1 (fun x hx => by
            rcases List.mem_cons.1 hx with rfl | hx
            · exact hlt
            · exact lt_trans hlt (hs'.1 x hx))] at this
          simp [Memory.read] at this
          exact absurd this hc
        · exact heq
        · have := h d.1
          rw [Memory.read_blank_of_lt (c :: rest) d.1 (fun x hx => by
            rcases List.mem_cons.1 hx with rfl | hx
            · exact hgt
            · exact lt_trans hgt (hs.1 x hx))] at this
          simp [Memory.read] at this
          exact absurd this.symm hd
      have hv : c.2 = d.2 := by
        have := h c.1
        simpa [Memory.read, key] using this
      have htail : rest = r := by
        refine ih (fun a => ?_) hs.2 (fun x hx => hb x (by simp [hx])) hs'.2 fun x hx => hb' x (by simp [hx])
        by_cases ha : a = c.1
        · subst ha
          rw [Memory.read_blank_of_lt rest c.1 hs.1, key, Memory.read_blank_of_lt r d.1 hs'.1]
        · have hca : ¬ c.1 = a := fun e => ha e.symm
          have hda : ¬ d.1 = a := fun e => ha (key.trans e).symm
          simpa [Memory.read, hca, hda] using h a
      rw [htail, Prod.ext key hv]

@[simp] theorem Memory.writeAll_nil (m : Memory) : m.writeAll [] = m := rfl

@[simp] theorem Memory.writeAll_cons (m : Memory) (x : Nat × Byte) (p : List (Nat × Byte)) :
    m.writeAll (x :: p) = (m.write x.1 x.2).writeAll p := rfl

theorem Memory.writeAll_append (m : Memory) (p q : List (Nat × Byte)) :
    m.writeAll (p ++ q) = (m.writeAll p).writeAll q := by simp [Memory.writeAll]

/-- Storing a list of bytes keeps the canonical form. -/
theorem Memory.writeAll_wf {m : Memory} {p : List (Nat × Byte)} (hm : m.wf) (hp : ∀ x ∈ p, x.1 < 2 ^ 64) :
    (m.writeAll p).wf := by
  induction p generalizing m with
  | nil => exact hm
  | cons x p ih =>
    exact ih (Memory.write_wf hm (hp x (by simp))) fun y hy => hp y (by simp [hy])

/-- Storing a list of bytes leaves every offset that is not in it. -/
theorem Memory.read_writeAll_other (m : Memory) {p : List (Nat × Byte)} {a : Nat} (h : ∀ x ∈ p, x.1 ≠ a) :
    (m.writeAll p).read a = m.read a := by
  induction p generalizing m with
  | nil => rfl
  | cons x p ih =>
    rw [Memory.writeAll_cons, ih _ fun y hy => h y (by simp [hy]),
      Memory.read_write_other _ _ (fun e => h x (by simp) e.symm)]

/-- Where the offsets are distinct, each stored byte reads back. -/
theorem Memory.read_writeAll_mem {m : Memory} {p : List (Nat × Byte)} (hm : m.wf) (hlt : ∀ x ∈ p, x.1 < 2 ^ 64)
    (hd : (p.map Prod.fst).Nodup) {x : Nat × Byte} (hx : x ∈ p) : (m.writeAll p).read x.1 = x.2 := by
  induction p generalizing m with
  | nil => cases hx
  | cons y p ih =>
    rw [List.map_cons, List.nodup_cons] at hd
    have hw := Memory.write_wf (b := y.2) hm (hlt y (by simp))
    rcases List.mem_cons.1 hx with rfl | hx
    · rw [Memory.writeAll_cons, Memory.read_writeAll_other, Memory.read_write_same hm]
      exact fun z hz e => hd.1 (List.mem_map.2 ⟨z, hz, e⟩)
    · exact ih hw (fun z hz => hlt z (by simp [hz])) hd.2 hx

/-- An offset in a window is at most its mask. -/
theorem offsetOf_le (p mask : Nat) : offsetOf p mask ≤ mask := Nat.and_le_right

/-- A window of `2^k` bytes is addressed modulo its size (spec R40). -/
theorem offsetOf_pow_two (p k : Nat) : offsetOf p (2 ^ k - 1) = p % 2 ^ k := Nat.and_two_pow_sub_one_eq_mod p k

/-- An unconstrained mask is the identity on positions of 64 bits (spec R40). -/
theorem offsetOf_all1 {p : Nat} (h : p < 2 ^ 64) : offsetOf p all1 = p := by
  rw [all1, offsetOf_pow_two, Nat.mod_eq_of_lt h]

end Sys2Proof.Machine
end

