-- ==== Sys2Proof/Laws/State.lean ====
section
/-! SUPPORT. One lemma per field per update of the state, so that no proof unfolds a record update. -/

namespace Sys2Proof.Machine

/-! ### setWork -/

@[simp] theorem setWork_cmd (w : Work) (s : State) :
    (setWork w s).cmd = s.cmd := rfl
@[simp] theorem setWork_arg0 (w : Work) (s : State) :
    (setWork w s).arg0 = s.arg0 := rfl
@[simp] theorem setWork_arg1 (w : Work) (s : State) :
    (setWork w s).arg1 = s.arg1 := rfl
@[simp] theorem setWork_arg2 (w : Work) (s : State) :
    (setWork w s).arg2 = s.arg2 := rfl
@[simp] theorem setWork_arg3 (w : Work) (s : State) :
    (setWork w s).arg3 = s.arg3 := rfl
@[simp] theorem setWork_status (w : Work) (s : State) :
    (setWork w s).status = s.status := rfl
@[simp] theorem setWork_ret0 (w : Work) (s : State) :
    (setWork w s).ret0 = s.ret0 := rfl
@[simp] theorem setWork_outBase (w : Work) (s : State) :
    (setWork w s).outBase = s.outBase := rfl
@[simp] theorem setWork_inBase (w : Work) (s : State) :
    (setWork w s).inBase = s.inBase := rfl
@[simp] theorem setWork_phase (w : Work) (s : State) :
    (setWork w s).phase = s.phase := rfl
@[simp] theorem setWork_fsm (w : Work) (s : State) :
    (setWork w s).fsm = s.fsm := rfl
@[simp] theorem setWork_totalLen (w : Work) (s : State) :
    (setWork w s).totalLen = s.totalLen := rfl
@[simp] theorem setWork_hdrOff (w : Work) (s : State) :
    (setWork w s).hdrOff = s.hdrOff := rfl
@[simp] theorem setWork_dataStart (w : Work) (s : State) :
    (setWork w s).dataStart = s.dataStart := rfl
@[simp] theorem setWork_decompSize (w : Work) (s : State) :
    (setWork w s).decompSize = s.decompSize := rfl
@[simp] theorem setWork_inMask (w : Work) (s : State) :
    (setWork w s).inMask = s.inMask := rfl
@[simp] theorem setWork_outMask (w : Work) (s : State) :
    (setWork w s).outMask = s.outMask := rfl
@[simp] theorem setWork_invMaskIn (w : Work) (s : State) :
    (setWork w s).invMaskIn = s.invMaskIn := rfl
@[simp] theorem setWork_invMaskOut (w : Work) (s : State) :
    (setWork w s).invMaskOut = s.invMaskOut := rfl
@[simp] theorem setWork_lenBytes (w : Work) (s : State) :
    (setWork w s).lenBytes = s.lenBytes := rfl
@[simp] theorem setWork_chunked (w : Work) (s : State) :
    (setWork w s).chunked = s.chunked := rfl
@[simp] theorem setWork_inByte (w : Work) (s : State) :
    (setWork w s).inByte = s.inByte := rfl
@[simp] theorem setWork_inBitoff (w : Work) (s : State) :
    (setWork w s).inBitoff = s.inBitoff := rfl
@[simp] theorem setWork_outCur (w : Work) (s : State) :
    (setWork w s).outCur = s.outCur := rfl
@[simp] theorem setWork_reqIn (w : Work) (s : State) :
    (setWork w s).reqIn = s.reqIn := rfl
@[simp] theorem setWork_nextBnd (w : Work) (s : State) :
    (setWork w s).nextBnd = s.nextBnd := rfl
@[simp] theorem setWork_availIn (w : Work) (s : State) :
    (setWork w s).availIn = s.availIn := rfl
@[simp] theorem setWork_availOut (w : Work) (s : State) :
    (setWork w s).availOut = s.availOut := rfl
@[simp] theorem setWork_acc (w : Work) (s : State) :
    (setWork w s).acc = s.acc := rfl
@[simp] theorem setWork_nbits (w : Work) (s : State) :
    (setWork w s).nbits = s.nbits := rfl
@[simp] theorem setWork_shortRom (w : Work) (s : State) :
    (setWork w s).shortRom = s.shortRom := rfl
@[simp] theorem setWork_longRom (w : Work) (s : State) :
    (setWork w s).longRom = s.longRom := rfl
@[simp] theorem setWork_inMem (w : Work) (s : State) :
    (setWork w s).inMem = s.inMem := rfl
@[simp] theorem setWork_outMem (w : Work) (s : State) :
    (setWork w s).outMem = s.outMem := rfl
@[simp] theorem setWork_activity (w : Work) (s : State) :
    (setWork w s).activity = s.activity := rfl
@[simp] theorem setWork_work (w : Work) (s : State) :
    (setWork w s).work = w := rfl
@[simp] theorem setWork_freeCount (w : Work) (s : State) :
    (setWork w s).freeCount = s.freeCount := rfl

/-! ### beginSymbol -/

@[simp] theorem beginSymbol_cmd (s : State) :
    (beginSymbol s).cmd = s.cmd := rfl
@[simp] theorem beginSymbol_arg0 (s : State) :
    (beginSymbol s).arg0 = s.arg0 := rfl
@[simp] theorem beginSymbol_arg1 (s : State) :
    (beginSymbol s).arg1 = s.arg1 := rfl
@[simp] theorem beginSymbol_arg2 (s : State) :
    (beginSymbol s).arg2 = s.arg2 := rfl
@[simp] theorem beginSymbol_arg3 (s : State) :
    (beginSymbol s).arg3 = s.arg3 := rfl
@[simp] theorem beginSymbol_status (s : State) :
    (beginSymbol s).status = s.status := rfl
@[simp] theorem beginSymbol_ret0 (s : State) :
    (beginSymbol s).ret0 = s.ret0 := rfl
@[simp] theorem beginSymbol_outBase (s : State) :
    (beginSymbol s).outBase = s.outBase := rfl
@[simp] theorem beginSymbol_inBase (s : State) :
    (beginSymbol s).inBase = s.inBase := rfl
@[simp] theorem beginSymbol_phase (s : State) :
    (beginSymbol s).phase = s.phase := rfl
@[simp] theorem beginSymbol_fsm (s : State) :
    (beginSymbol s).fsm = .readSymbol := rfl
@[simp] theorem beginSymbol_totalLen (s : State) :
    (beginSymbol s).totalLen = s.totalLen := rfl
@[simp] theorem beginSymbol_hdrOff (s : State) :
    (beginSymbol s).hdrOff = s.hdrOff := rfl
@[simp] theorem beginSymbol_dataStart (s : State) :
    (beginSymbol s).dataStart = s.dataStart := rfl
@[simp] theorem beginSymbol_decompSize (s : State) :
    (beginSymbol s).decompSize = s.decompSize := rfl
@[simp] theorem beginSymbol_inMask (s : State) :
    (beginSymbol s).inMask = s.inMask := rfl
@[simp] theorem beginSymbol_outMask (s : State) :
    (beginSymbol s).outMask = s.outMask := rfl
@[simp] theorem beginSymbol_invMaskIn (s : State) :
    (beginSymbol s).invMaskIn = s.invMaskIn := rfl
@[simp] theorem beginSymbol_invMaskOut (s : State) :
    (beginSymbol s).invMaskOut = s.invMaskOut := rfl
@[simp] theorem beginSymbol_lenBytes (s : State) :
    (beginSymbol s).lenBytes = s.lenBytes := rfl
@[simp] theorem beginSymbol_chunked (s : State) :
    (beginSymbol s).chunked = s.chunked := rfl
@[simp] theorem beginSymbol_inByte (s : State) :
    (beginSymbol s).inByte = s.inByte := rfl
@[simp] theorem beginSymbol_inBitoff (s : State) :
    (beginSymbol s).inBitoff = s.inBitoff := rfl
@[simp] theorem beginSymbol_outCur (s : State) :
    (beginSymbol s).outCur = s.outCur := rfl
@[simp] theorem beginSymbol_reqIn (s : State) :
    (beginSymbol s).reqIn = s.reqIn := rfl
@[simp] theorem beginSymbol_nextBnd (s : State) :
    (beginSymbol s).nextBnd = s.nextBnd := rfl
@[simp] theorem beginSymbol_availIn (s : State) :
    (beginSymbol s).availIn = s.availIn := rfl
@[simp] theorem beginSymbol_availOut (s : State) :
    (beginSymbol s).availOut = s.availOut := rfl
@[simp] theorem beginSymbol_acc (s : State) :
    (beginSymbol s).acc = s.acc := rfl
@[simp] theorem beginSymbol_nbits (s : State) :
    (beginSymbol s).nbits = s.nbits := rfl
@[simp] theorem beginSymbol_shortRom (s : State) :
    (beginSymbol s).shortRom = s.shortRom := rfl
@[simp] theorem beginSymbol_longRom (s : State) :
    (beginSymbol s).longRom = s.longRom := rfl
@[simp] theorem beginSymbol_inMem (s : State) :
    (beginSymbol s).inMem = s.inMem := rfl
@[simp] theorem beginSymbol_outMem (s : State) :
    (beginSymbol s).outMem = s.outMem := rfl
@[simp] theorem beginSymbol_activity (s : State) :
    (beginSymbol s).activity = s.activity := rfl
@[simp] theorem beginSymbol_work (s : State) :
    (beginSymbol s).work = copyWork s := rfl
@[simp] theorem beginSymbol_freeCount (s : State) :
    (beginSymbol s).freeCount = s.freeCount := rfl

/-! ### endCommand -/

@[simp] theorem endCommand_cmd (st : Status) (s : State) :
    (endCommand st s).cmd = s.cmd := rfl
@[simp] theorem endCommand_arg0 (st : Status) (s : State) :
    (endCommand st s).arg0 = s.arg0 := rfl
@[simp] theorem endCommand_arg1 (st : Status) (s : State) :
    (endCommand st s).arg1 = s.arg1 := rfl
@[simp] theorem endCommand_arg2 (st : Status) (s : State) :
    (endCommand st s).arg2 = s.arg2 := rfl
@[simp] theorem endCommand_arg3 (st : Status) (s : State) :
    (endCommand st s).arg3 = s.arg3 := rfl
@[simp] theorem endCommand_status (st : Status) (s : State) :
    (endCommand st s).status = st := rfl
@[simp] theorem endCommand_ret0 (st : Status) (s : State) :
    (endCommand st s).ret0 = s.ret0 := rfl
@[simp] theorem endCommand_outBase (st : Status) (s : State) :
    (endCommand st s).outBase = s.outBase := rfl
@[simp] theorem endCommand_inBase (st : Status) (s : State) :
    (endCommand st s).inBase = s.inBase := rfl
@[simp] theorem endCommand_phase (st : Status) (s : State) :
    (endCommand st s).phase = s.phase := rfl
@[simp] theorem endCommand_fsm (st : Status) (s : State) :
    (endCommand st s).fsm = s.fsm := rfl
@[simp] theorem endCommand_totalLen (st : Status) (s : State) :
    (endCommand st s).totalLen = s.totalLen := rfl
@[simp] theorem endCommand_hdrOff (st : Status) (s : State) :
    (endCommand st s).hdrOff = s.hdrOff := rfl
@[simp] theorem endCommand_dataStart (st : Status) (s : State) :
    (endCommand st s).dataStart = s.dataStart := rfl
@[simp] theorem endCommand_decompSize (st : Status) (s : State) :
    (endCommand st s).decompSize = s.decompSize := rfl
@[simp] theorem endCommand_inMask (st : Status) (s : State) :
    (endCommand st s).inMask = s.inMask := rfl
@[simp] theorem endCommand_outMask (st : Status) (s : State) :
    (endCommand st s).outMask = s.outMask := rfl
@[simp] theorem endCommand_invMaskIn (st : Status) (s : State) :
    (endCommand st s).invMaskIn = s.invMaskIn := rfl
@[simp] theorem endCommand_invMaskOut (st : Status) (s : State) :
    (endCommand st s).invMaskOut = s.invMaskOut := rfl
@[simp] theorem endCommand_lenBytes (st : Status) (s : State) :
    (endCommand st s).lenBytes = s.lenBytes := rfl
@[simp] theorem endCommand_chunked (st : Status) (s : State) :
    (endCommand st s).chunked = s.chunked := rfl
@[simp] theorem endCommand_inByte (st : Status) (s : State) :
    (endCommand st s).inByte = s.inByte := rfl
@[simp] theorem endCommand_inBitoff (st : Status) (s : State) :
    (endCommand st s).inBitoff = s.inBitoff := rfl
@[simp] theorem endCommand_outCur (st : Status) (s : State) :
    (endCommand st s).outCur = s.outCur := rfl
@[simp] theorem endCommand_reqIn (st : Status) (s : State) :
    (endCommand st s).reqIn = s.reqIn := rfl
@[simp] theorem endCommand_nextBnd (st : Status) (s : State) :
    (endCommand st s).nextBnd = s.nextBnd := rfl
@[simp] theorem endCommand_availIn (st : Status) (s : State) :
    (endCommand st s).availIn = 0 := rfl
@[simp] theorem endCommand_availOut (st : Status) (s : State) :
    (endCommand st s).availOut = 0 := rfl
@[simp] theorem endCommand_acc (st : Status) (s : State) :
    (endCommand st s).acc = s.acc := rfl
@[simp] theorem endCommand_nbits (st : Status) (s : State) :
    (endCommand st s).nbits = s.nbits := rfl
@[simp] theorem endCommand_shortRom (st : Status) (s : State) :
    (endCommand st s).shortRom = s.shortRom := rfl
@[simp] theorem endCommand_longRom (st : Status) (s : State) :
    (endCommand st s).longRom = s.longRom := rfl
@[simp] theorem endCommand_inMem (st : Status) (s : State) :
    (endCommand st s).inMem = s.inMem := rfl
@[simp] theorem endCommand_outMem (st : Status) (s : State) :
    (endCommand st s).outMem = s.outMem := rfl
@[simp] theorem endCommand_activity (st : Status) (s : State) :
    (endCommand st s).activity = .idle := rfl
@[simp] theorem endCommand_work (st : Status) (s : State) :
    (endCommand st s).work = Work.none := rfl
@[simp] theorem endCommand_freeCount (st : Status) (s : State) :
    (endCommand st s).freeCount = s.freeCount := rfl

/-! ### stopLoop -/

@[simp] theorem stopLoop_cmd (st : Status) (s : State) :
    (stopLoop st s).cmd = s.cmd := rfl
@[simp] theorem stopLoop_arg0 (st : Status) (s : State) :
    (stopLoop st s).arg0 = s.arg0 := rfl
@[simp] theorem stopLoop_arg1 (st : Status) (s : State) :
    (stopLoop st s).arg1 = s.arg1 := rfl
@[simp] theorem stopLoop_arg2 (st : Status) (s : State) :
    (stopLoop st s).arg2 = s.arg2 := rfl
@[simp] theorem stopLoop_arg3 (st : Status) (s : State) :
    (stopLoop st s).arg3 = s.arg3 := rfl
@[simp] theorem stopLoop_status (st : Status) (s : State) :
    (stopLoop st s).status = st := rfl
@[simp] theorem stopLoop_ret0 (st : Status) (s : State) :
    (stopLoop st s).ret0 = s.ret0 := rfl
@[simp] theorem stopLoop_outBase (st : Status) (s : State) :
    (stopLoop st s).outBase = s.outBase := rfl
@[simp] theorem stopLoop_inBase (st : Status) (s : State) :
    (stopLoop st s).inBase = s.inBase := rfl
@[simp] theorem stopLoop_phase (st : Status) (s : State) :
    (stopLoop st s).phase = if st = .done then .done else s.phase := rfl
@[simp] theorem stopLoop_fsm (st : Status) (s : State) :
    (stopLoop st s).fsm = s.fsm := rfl
@[simp] theorem stopLoop_totalLen (st : Status) (s : State) :
    (stopLoop st s).totalLen = s.totalLen := rfl
@[simp] theorem stopLoop_hdrOff (st : Status) (s : State) :
    (stopLoop st s).hdrOff = s.hdrOff := rfl
@[simp] theorem stopLoop_dataStart (st : Status) (s : State) :
    (stopLoop st s).dataStart = s.dataStart := rfl
@[simp] theorem stopLoop_decompSize (st : Status) (s : State) :
    (stopLoop st s).decompSize = s.decompSize := rfl
@[simp] theorem stopLoop_inMask (st : Status) (s : State) :
    (stopLoop st s).inMask = s.inMask := rfl
@[simp] theorem stopLoop_outMask (st : Status) (s : State) :
    (stopLoop st s).outMask = s.outMask := rfl
@[simp] theorem stopLoop_invMaskIn (st : Status) (s : State) :
    (stopLoop st s).invMaskIn = s.invMaskIn := rfl
@[simp] theorem stopLoop_invMaskOut (st : Status) (s : State) :
    (stopLoop st s).invMaskOut = s.invMaskOut := rfl
@[simp] theorem stopLoop_lenBytes (st : Status) (s : State) :
    (stopLoop st s).lenBytes = s.lenBytes := rfl
@[simp] theorem stopLoop_chunked (st : Status) (s : State) :
    (stopLoop st s).chunked = s.chunked := rfl
@[simp] theorem stopLoop_inByte (st : Status) (s : State) :
    (stopLoop st s).inByte = s.inByte := rfl
@[simp] theorem stopLoop_inBitoff (st : Status) (s : State) :
    (stopLoop st s).inBitoff = s.inBitoff := rfl
@[simp] theorem stopLoop_outCur (st : Status) (s : State) :
    (stopLoop st s).outCur = s.outCur := rfl
@[simp] theorem stopLoop_reqIn (st : Status) (s : State) :
    (stopLoop st s).reqIn = s.reqIn := rfl
@[simp] theorem stopLoop_nextBnd (st : Status) (s : State) :
    (stopLoop st s).nextBnd = s.nextBnd := rfl
@[simp] theorem stopLoop_availIn (st : Status) (s : State) :
    (stopLoop st s).availIn = 0 := rfl
@[simp] theorem stopLoop_availOut (st : Status) (s : State) :
    (stopLoop st s).availOut = 0 := rfl
@[simp] theorem stopLoop_acc (st : Status) (s : State) :
    (stopLoop st s).acc = s.acc := rfl
@[simp] theorem stopLoop_nbits (st : Status) (s : State) :
    (stopLoop st s).nbits = s.nbits := rfl
@[simp] theorem stopLoop_shortRom (st : Status) (s : State) :
    (stopLoop st s).shortRom = s.shortRom := rfl
@[simp] theorem stopLoop_longRom (st : Status) (s : State) :
    (stopLoop st s).longRom = s.longRom := rfl
@[simp] theorem stopLoop_inMem (st : Status) (s : State) :
    (stopLoop st s).inMem = s.inMem := rfl
@[simp] theorem stopLoop_outMem (st : Status) (s : State) :
    (stopLoop st s).outMem = s.outMem := rfl
@[simp] theorem stopLoop_activity (st : Status) (s : State) :
    (stopLoop st s).activity = .idle := rfl
@[simp] theorem stopLoop_work (st : Status) (s : State) :
    (stopLoop st s).work = Work.none := rfl
@[simp] theorem stopLoop_freeCount (st : Status) (s : State) :
    (stopLoop st s).freeCount = s.freeCount := rfl

/-! ### enterDecode -/

@[simp] theorem enterDecode_cmd (s : State) :
    (enterDecode s).cmd = s.cmd := rfl
@[simp] theorem enterDecode_arg0 (s : State) :
    (enterDecode s).arg0 = s.arg0 := rfl
@[simp] theorem enterDecode_arg1 (s : State) :
    (enterDecode s).arg1 = s.arg1 := rfl
@[simp] theorem enterDecode_arg2 (s : State) :
    (enterDecode s).arg2 = s.arg2 := rfl
@[simp] theorem enterDecode_arg3 (s : State) :
    (enterDecode s).arg3 = s.arg3 := rfl
@[simp] theorem enterDecode_status (s : State) :
    (enterDecode s).status = s.status := rfl
@[simp] theorem enterDecode_ret0 (s : State) :
    (enterDecode s).ret0 = s.ret0 := rfl
@[simp] theorem enterDecode_outBase (s : State) :
    (enterDecode s).outBase = s.outBase := rfl
@[simp] theorem enterDecode_inBase (s : State) :
    (enterDecode s).inBase = s.inBase := rfl
@[simp] theorem enterDecode_phase (s : State) :
    (enterDecode s).phase = s.phase := rfl
@[simp] theorem enterDecode_fsm (s : State) :
    (enterDecode s).fsm = s.fsm := rfl
@[simp] theorem enterDecode_totalLen (s : State) :
    (enterDecode s).totalLen = s.totalLen := rfl
@[simp] theorem enterDecode_hdrOff (s : State) :
    (enterDecode s).hdrOff = s.hdrOff := rfl
@[simp] theorem enterDecode_dataStart (s : State) :
    (enterDecode s).dataStart = s.dataStart := rfl
@[simp] theorem enterDecode_decompSize (s : State) :
    (enterDecode s).decompSize = s.decompSize := rfl
@[simp] theorem enterDecode_inMask (s : State) :
    (enterDecode s).inMask = s.inMask := rfl
@[simp] theorem enterDecode_outMask (s : State) :
    (enterDecode s).outMask = s.outMask := rfl
@[simp] theorem enterDecode_invMaskIn (s : State) :
    (enterDecode s).invMaskIn = s.invMaskIn := rfl
@[simp] theorem enterDecode_invMaskOut (s : State) :
    (enterDecode s).invMaskOut = s.invMaskOut := rfl
@[simp] theorem enterDecode_lenBytes (s : State) :
    (enterDecode s).lenBytes = s.lenBytes := rfl
@[simp] theorem enterDecode_chunked (s : State) :
    (enterDecode s).chunked = s.chunked := rfl
@[simp] theorem enterDecode_inByte (s : State) :
    (enterDecode s).inByte = s.inByte := rfl
@[simp] theorem enterDecode_inBitoff (s : State) :
    (enterDecode s).inBitoff = s.inBitoff := rfl
@[simp] theorem enterDecode_outCur (s : State) :
    (enterDecode s).outCur = s.outCur := rfl
@[simp] theorem enterDecode_reqIn (s : State) :
    (enterDecode s).reqIn = s.reqIn := rfl
@[simp] theorem enterDecode_nextBnd (s : State) :
    (enterDecode s).nextBnd = s.nextBnd := rfl
@[simp] theorem enterDecode_availIn (s : State) :
    (enterDecode s).availIn = BitVec.ofNat 64 (min s.arg0.toNat s.totalLen.toNat) := rfl
@[simp] theorem enterDecode_availOut (s : State) :
    (enterDecode s).availOut = BitVec.ofNat 64 (min s.arg1.toNat s.decompSize.toNat) := rfl
@[simp] theorem enterDecode_acc (s : State) :
    (enterDecode s).acc = s.acc := rfl
@[simp] theorem enterDecode_nbits (s : State) :
    (enterDecode s).nbits = 0 := rfl
@[simp] theorem enterDecode_shortRom (s : State) :
    (enterDecode s).shortRom = s.shortRom := rfl
@[simp] theorem enterDecode_longRom (s : State) :
    (enterDecode s).longRom = s.longRom := rfl
@[simp] theorem enterDecode_inMem (s : State) :
    (enterDecode s).inMem = s.inMem := rfl
@[simp] theorem enterDecode_outMem (s : State) :
    (enterDecode s).outMem = s.outMem := rfl
@[simp] theorem enterDecode_activity (s : State) :
    (enterDecode s).activity = .decode := rfl
@[simp] theorem enterDecode_work (s : State) :
    (enterDecode s).work = s.work := rfl
@[simp] theorem enterDecode_freeCount (s : State) :
    (enterDecode s).freeCount = s.freeCount := rfl

/-! ### commitSymbol -/

@[simp] theorem commitSymbol_cmd (p : List (Nat × Byte)) (w : Work) (n : Nat) (s : State) :
    (commitSymbol p w n s).cmd = s.cmd := rfl
@[simp] theorem commitSymbol_arg0 (p : List (Nat × Byte)) (w : Work) (n : Nat) (s : State) :
    (commitSymbol p w n s).arg0 = s.arg0 := rfl
@[simp] theorem commitSymbol_arg1 (p : List (Nat × Byte)) (w : Work) (n : Nat) (s : State) :
    (commitSymbol p w n s).arg1 = s.arg1 := rfl
@[simp] theorem commitSymbol_arg2 (p : List (Nat × Byte)) (w : Work) (n : Nat) (s : State) :
    (commitSymbol p w n s).arg2 = s.arg2 := rfl
@[simp] theorem commitSymbol_arg3 (p : List (Nat × Byte)) (w : Work) (n : Nat) (s : State) :
    (commitSymbol p w n s).arg3 = s.arg3 := rfl
@[simp] theorem commitSymbol_status (p : List (Nat × Byte)) (w : Work) (n : Nat) (s : State) :
    (commitSymbol p w n s).status = s.status := rfl
@[simp] theorem commitSymbol_ret0 (p : List (Nat × Byte)) (w : Work) (n : Nat) (s : State) :
    (commitSymbol p w n s).ret0 = s.ret0 := rfl
@[simp] theorem commitSymbol_outBase (p : List (Nat × Byte)) (w : Work) (n : Nat) (s : State) :
    (commitSymbol p w n s).outBase = s.outBase := rfl
@[simp] theorem commitSymbol_inBase (p : List (Nat × Byte)) (w : Work) (n : Nat) (s : State) :
    (commitSymbol p w n s).inBase = s.inBase := rfl
@[simp] theorem commitSymbol_phase (p : List (Nat × Byte)) (w : Work) (n : Nat) (s : State) :
    (commitSymbol p w n s).phase = s.phase := rfl
@[simp] theorem commitSymbol_fsm (p : List (Nat × Byte)) (w : Work) (n : Nat) (s : State) :
    (commitSymbol p w n s).fsm = .readSymbol := rfl
@[simp] theorem commitSymbol_totalLen (p : List (Nat × Byte)) (w : Work) (n : Nat) (s : State) :
    (commitSymbol p w n s).totalLen = s.totalLen := rfl
@[simp] theorem commitSymbol_hdrOff (p : List (Nat × Byte)) (w : Work) (n : Nat) (s : State) :
    (commitSymbol p w n s).hdrOff = s.hdrOff := rfl
@[simp] theorem commitSymbol_dataStart (p : List (Nat × Byte)) (w : Work) (n : Nat) (s : State) :
    (commitSymbol p w n s).dataStart = s.dataStart := rfl
@[simp] theorem commitSymbol_decompSize (p : List (Nat × Byte)) (w : Work) (n : Nat) (s : State) :
    (commitSymbol p w n s).decompSize = s.decompSize := rfl
@[simp] theorem commitSymbol_inMask (p : List (Nat × Byte)) (w : Work) (n : Nat) (s : State) :
    (commitSymbol p w n s).inMask = s.inMask := rfl
@[simp] theorem commitSymbol_outMask (p : List (Nat × Byte)) (w : Work) (n : Nat) (s : State) :
    (commitSymbol p w n s).outMask = s.outMask := rfl
@[simp] theorem commitSymbol_invMaskIn (p : List (Nat × Byte)) (w : Work) (n : Nat) (s : State) :
    (commitSymbol p w n s).invMaskIn = s.invMaskIn := rfl
@[simp] theorem commitSymbol_invMaskOut (p : List (Nat × Byte)) (w : Work) (n : Nat) (s : State) :
    (commitSymbol p w n s).invMaskOut = s.invMaskOut := rfl
@[simp] theorem commitSymbol_lenBytes (p : List (Nat × Byte)) (w : Work) (n : Nat) (s : State) :
    (commitSymbol p w n s).lenBytes = s.lenBytes := rfl
@[simp] theorem commitSymbol_chunked (p : List (Nat × Byte)) (w : Work) (n : Nat) (s : State) :
    (commitSymbol p w n s).chunked = s.chunked := rfl
@[simp] theorem commitSymbol_inByte (p : List (Nat × Byte)) (w : Work) (n : Nat) (s : State) :
    (commitSymbol p w n s).inByte = BitVec.ofNat 64 w.inByte := rfl
@[simp] theorem commitSymbol_inBitoff (p : List (Nat × Byte)) (w : Work) (n : Nat) (s : State) :
    (commitSymbol p w n s).inBitoff = BitVec.ofNat 3 w.bitOff := rfl
@[simp] theorem commitSymbol_outCur (p : List (Nat × Byte)) (w : Work) (n : Nat) (s : State) :
    (commitSymbol p w n s).outCur = BitVec.ofNat 64 (s.outCur.toNat + n) := rfl
@[simp] theorem commitSymbol_reqIn (p : List (Nat × Byte)) (w : Work) (n : Nat) (s : State) :
    (commitSymbol p w n s).reqIn = BitVec.ofNat 64 w.reqIn := rfl
@[simp] theorem commitSymbol_nextBnd (p : List (Nat × Byte)) (w : Work) (n : Nat) (s : State) :
    (commitSymbol p w n s).nextBnd = BitVec.ofNat 64 w.nextBnd := rfl
@[simp] theorem commitSymbol_availIn (p : List (Nat × Byte)) (w : Work) (n : Nat) (s : State) :
    (commitSymbol p w n s).availIn = s.availIn := rfl
@[simp] theorem commitSymbol_availOut (p : List (Nat × Byte)) (w : Work) (n : Nat) (s : State) :
    (commitSymbol p w n s).availOut = s.availOut := rfl
@[simp] theorem commitSymbol_acc (p : List (Nat × Byte)) (w : Work) (n : Nat) (s : State) :
    (commitSymbol p w n s).acc = s.acc := rfl
@[simp] theorem commitSymbol_nbits (p : List (Nat × Byte)) (w : Work) (n : Nat) (s : State) :
    (commitSymbol p w n s).nbits = s.nbits := rfl
@[simp] theorem commitSymbol_shortRom (p : List (Nat × Byte)) (w : Work) (n : Nat) (s : State) :
    (commitSymbol p w n s).shortRom = s.shortRom := rfl
@[simp] theorem commitSymbol_longRom (p : List (Nat × Byte)) (w : Work) (n : Nat) (s : State) :
    (commitSymbol p w n s).longRom = s.longRom := rfl
@[simp] theorem commitSymbol_inMem (p : List (Nat × Byte)) (w : Work) (n : Nat) (s : State) :
    (commitSymbol p w n s).inMem = s.inMem := rfl
@[simp] theorem commitSymbol_outMem (p : List (Nat × Byte)) (w : Work) (n : Nat) (s : State) :
    (commitSymbol p w n s).outMem = s.outMem.writeAll p := rfl
@[simp] theorem commitSymbol_activity (p : List (Nat × Byte)) (w : Work) (n : Nat) (s : State) :
    (commitSymbol p w n s).activity = .decode := rfl
@[simp] theorem commitSymbol_work (p : List (Nat × Byte)) (w : Work) (n : Nat) (s : State) :
    (commitSymbol p w n s).work = Work.none := rfl
@[simp] theorem commitSymbol_freeCount (p : List (Nat × Byte)) (w : Work) (n : Nat) (s : State) :
    (commitSymbol p w n s).freeCount = s.freeCount := rfl

/-! ### raiseStatus -/

@[simp] theorem raiseStatus_cmd (st : Status) (s : State) :
    (raiseStatus st s).cmd = s.cmd := by unfold raiseStatus; split <;> rfl
@[simp] theorem raiseStatus_arg0 (st : Status) (s : State) :
    (raiseStatus st s).arg0 = s.arg0 := by unfold raiseStatus; split <;> rfl
@[simp] theorem raiseStatus_arg1 (st : Status) (s : State) :
    (raiseStatus st s).arg1 = s.arg1 := by unfold raiseStatus; split <;> rfl
@[simp] theorem raiseStatus_arg2 (st : Status) (s : State) :
    (raiseStatus st s).arg2 = s.arg2 := by unfold raiseStatus; split <;> rfl
@[simp] theorem raiseStatus_arg3 (st : Status) (s : State) :
    (raiseStatus st s).arg3 = s.arg3 := by unfold raiseStatus; split <;> rfl
@[simp] theorem raiseStatus_status (st : Status) (s : State) :
    (raiseStatus st s).status = st := by unfold raiseStatus; split <;> rfl
@[simp] theorem raiseStatus_outBase (st : Status) (s : State) :
    (raiseStatus st s).outBase = s.outBase := by unfold raiseStatus; split <;> rfl
@[simp] theorem raiseStatus_inBase (st : Status) (s : State) :
    (raiseStatus st s).inBase = s.inBase := by unfold raiseStatus; split <;> rfl
@[simp] theorem raiseStatus_fsm (st : Status) (s : State) :
    (raiseStatus st s).fsm = .readSymbol := by unfold raiseStatus; split <;> rfl
@[simp] theorem raiseStatus_totalLen (st : Status) (s : State) :
    (raiseStatus st s).totalLen = s.totalLen := by unfold raiseStatus; split <;> rfl
@[simp] theorem raiseStatus_hdrOff (st : Status) (s : State) :
    (raiseStatus st s).hdrOff = s.hdrOff := by unfold raiseStatus; split <;> rfl
@[simp] theorem raiseStatus_dataStart (st : Status) (s : State) :
    (raiseStatus st s).dataStart = s.dataStart := by unfold raiseStatus; split <;> rfl
@[simp] theorem raiseStatus_decompSize (st : Status) (s : State) :
    (raiseStatus st s).decompSize = s.decompSize := by unfold raiseStatus; split <;> rfl
@[simp] theorem raiseStatus_inMask (st : Status) (s : State) :
    (raiseStatus st s).inMask = s.inMask := by unfold raiseStatus; split <;> rfl
@[simp] theorem raiseStatus_outMask (st : Status) (s : State) :
    (raiseStatus st s).outMask = s.outMask := by unfold raiseStatus; split <;> rfl
@[simp] theorem raiseStatus_invMaskIn (st : Status) (s : State) :
    (raiseStatus st s).invMaskIn = s.invMaskIn := by unfold raiseStatus; split <;> rfl
@[simp] theorem raiseStatus_invMaskOut (st : Status) (s : State) :
    (raiseStatus st s).invMaskOut = s.invMaskOut := by unfold raiseStatus; split <;> rfl
@[simp] theorem raiseStatus_lenBytes (st : Status) (s : State) :
    (raiseStatus st s).lenBytes = s.lenBytes := by unfold raiseStatus; split <;> rfl
@[simp] theorem raiseStatus_chunked (st : Status) (s : State) :
    (raiseStatus st s).chunked = s.chunked := by unfold raiseStatus; split <;> rfl
@[simp] theorem raiseStatus_inByte (st : Status) (s : State) :
    (raiseStatus st s).inByte = s.inByte := by unfold raiseStatus; split <;> rfl
@[simp] theorem raiseStatus_inBitoff (st : Status) (s : State) :
    (raiseStatus st s).inBitoff = s.inBitoff := by unfold raiseStatus; split <;> rfl
@[simp] theorem raiseStatus_outCur (st : Status) (s : State) :
    (raiseStatus st s).outCur = s.outCur := by unfold raiseStatus; split <;> rfl
@[simp] theorem raiseStatus_reqIn (st : Status) (s : State) :
    (raiseStatus st s).reqIn = s.reqIn := by unfold raiseStatus; split <;> rfl
@[simp] theorem raiseStatus_nextBnd (st : Status) (s : State) :
    (raiseStatus st s).nextBnd = s.nextBnd := by unfold raiseStatus; split <;> rfl
@[simp] theorem raiseStatus_availIn (st : Status) (s : State) :
    (raiseStatus st s).availIn = 0 := by unfold raiseStatus; split <;> rfl
@[simp] theorem raiseStatus_availOut (st : Status) (s : State) :
    (raiseStatus st s).availOut = 0 := by unfold raiseStatus; split <;> rfl
@[simp] theorem raiseStatus_acc (st : Status) (s : State) :
    (raiseStatus st s).acc = s.acc := by unfold raiseStatus; split <;> rfl
@[simp] theorem raiseStatus_nbits (st : Status) (s : State) :
    (raiseStatus st s).nbits = 0 := by unfold raiseStatus; split <;> rfl
@[simp] theorem raiseStatus_shortRom (st : Status) (s : State) :
    (raiseStatus st s).shortRom = s.shortRom := by unfold raiseStatus; split <;> rfl
@[simp] theorem raiseStatus_longRom (st : Status) (s : State) :
    (raiseStatus st s).longRom = s.longRom := by unfold raiseStatus; split <;> rfl
@[simp] theorem raiseStatus_inMem (st : Status) (s : State) :
    (raiseStatus st s).inMem = s.inMem := by unfold raiseStatus; split <;> rfl
@[simp] theorem raiseStatus_outMem (st : Status) (s : State) :
    (raiseStatus st s).outMem = s.outMem := by unfold raiseStatus; split <;> rfl
@[simp] theorem raiseStatus_activity (st : Status) (s : State) :
    (raiseStatus st s).activity = .idle := by unfold raiseStatus; split <;> rfl
@[simp] theorem raiseStatus_work (st : Status) (s : State) :
    (raiseStatus st s).work = Work.none := by unfold raiseStatus; split <;> rfl
@[simp] theorem raiseStatus_freeCount (st : Status) (s : State) :
    (raiseStatus st s).freeCount = s.freeCount := by unfold raiseStatus; split <;> rfl

/-! ### beginInit -/

@[simp] theorem beginInit_cmd (s : State) :
    (beginInit s).cmd = s.cmd := rfl
@[simp] theorem beginInit_arg0 (s : State) :
    (beginInit s).arg0 = s.arg0 := rfl
@[simp] theorem beginInit_arg1 (s : State) :
    (beginInit s).arg1 = s.arg1 := rfl
@[simp] theorem beginInit_arg2 (s : State) :
    (beginInit s).arg2 = s.arg2 := rfl
@[simp] theorem beginInit_arg3 (s : State) :
    (beginInit s).arg3 = s.arg3 := rfl
@[simp] theorem beginInit_status (s : State) :
    (beginInit s).status = s.status := rfl
@[simp] theorem beginInit_ret0 (s : State) :
    (beginInit s).ret0 = s.ret0 := rfl
@[simp] theorem beginInit_outBase (s : State) :
    (beginInit s).outBase = s.outBase := rfl
@[simp] theorem beginInit_inBase (s : State) :
    (beginInit s).inBase = s.inBase := rfl
@[simp] theorem beginInit_phase (s : State) :
    (beginInit s).phase = .noSession := rfl
@[simp] theorem beginInit_fsm (s : State) :
    (beginInit s).fsm = .readSymbol := rfl
@[simp] theorem beginInit_totalLen (s : State) :
    (beginInit s).totalLen = s.totalLen := rfl
@[simp] theorem beginInit_hdrOff (s : State) :
    (beginInit s).hdrOff = s.hdrOff := rfl
@[simp] theorem beginInit_dataStart (s : State) :
    (beginInit s).dataStart = s.dataStart := rfl
@[simp] theorem beginInit_decompSize (s : State) :
    (beginInit s).decompSize = s.decompSize := rfl
@[simp] theorem beginInit_inMask (s : State) :
    (beginInit s).inMask = s.inMask := rfl
@[simp] theorem beginInit_outMask (s : State) :
    (beginInit s).outMask = s.outMask := rfl
@[simp] theorem beginInit_invMaskIn (s : State) :
    (beginInit s).invMaskIn = s.invMaskIn := rfl
@[simp] theorem beginInit_invMaskOut (s : State) :
    (beginInit s).invMaskOut = s.invMaskOut := rfl
@[simp] theorem beginInit_lenBytes (s : State) :
    (beginInit s).lenBytes = s.lenBytes := rfl
@[simp] theorem beginInit_chunked (s : State) :
    (beginInit s).chunked = s.chunked := rfl
@[simp] theorem beginInit_inByte (s : State) :
    (beginInit s).inByte = s.inByte := rfl
@[simp] theorem beginInit_inBitoff (s : State) :
    (beginInit s).inBitoff = s.inBitoff := rfl
@[simp] theorem beginInit_outCur (s : State) :
    (beginInit s).outCur = s.outCur := rfl
@[simp] theorem beginInit_reqIn (s : State) :
    (beginInit s).reqIn = s.reqIn := rfl
@[simp] theorem beginInit_nextBnd (s : State) :
    (beginInit s).nextBnd = s.nextBnd := rfl
@[simp] theorem beginInit_availIn (s : State) :
    (beginInit s).availIn = s.availIn := rfl
@[simp] theorem beginInit_availOut (s : State) :
    (beginInit s).availOut = s.availOut := rfl
@[simp] theorem beginInit_acc (s : State) :
    (beginInit s).acc = s.acc := rfl
@[simp] theorem beginInit_nbits (s : State) :
    (beginInit s).nbits = s.nbits := rfl
@[simp] theorem beginInit_shortRom (s : State) :
    (beginInit s).shortRom = s.shortRom := rfl
@[simp] theorem beginInit_longRom (s : State) :
    (beginInit s).longRom = s.longRom := rfl
@[simp] theorem beginInit_inMem (s : State) :
    (beginInit s).inMem = s.inMem := rfl
@[simp] theorem beginInit_outMem (s : State) :
    (beginInit s).outMem = s.outMem := rfl
@[simp] theorem beginInit_activity (s : State) :
    (beginInit s).activity = .init := rfl
@[simp] theorem beginInit_work (s : State) :
    (beginInit s).work = headerWork s := rfl
@[simp] theorem beginInit_freeCount (s : State) :
    (beginInit s).freeCount = s.freeCount := rfl

/-! ### openSession -/

@[simp] theorem openSession_cmd (e : BitVec 6) (fr : BitVec 63) (i o : BitVec 6) (t : Option Trail) (s : State) :
    (openSession e fr i o t s).cmd = s.cmd := rfl
@[simp] theorem openSession_arg0 (e : BitVec 6) (fr : BitVec 63) (i o : BitVec 6) (t : Option Trail) (s : State) :
    (openSession e fr i o t s).arg0 = s.arg0 := rfl
@[simp] theorem openSession_arg1 (e : BitVec 6) (fr : BitVec 63) (i o : BitVec 6) (t : Option Trail) (s : State) :
    (openSession e fr i o t s).arg1 = s.arg1 := rfl
@[simp] theorem openSession_arg2 (e : BitVec 6) (fr : BitVec 63) (i o : BitVec 6) (t : Option Trail) (s : State) :
    (openSession e fr i o t s).arg2 = s.arg2 := rfl
@[simp] theorem openSession_arg3 (e : BitVec 6) (fr : BitVec 63) (i o : BitVec 6) (t : Option Trail) (s : State) :
    (openSession e fr i o t s).arg3 = s.arg3 := rfl
@[simp] theorem openSession_status (e : BitVec 6) (fr : BitVec 63) (i o : BitVec 6) (t : Option Trail) (s : State) :
    (openSession e fr i o t s).status = .ok := rfl
@[simp] theorem openSession_ret0 (e : BitVec 6) (fr : BitVec 63) (i o : BitVec 6) (t : Option Trail) (s : State) :
    (openSession e fr i o t s).ret0 = BitVec.ofNat 64 (initReqIn i t s) := rfl
@[simp] theorem openSession_outBase (e : BitVec 6) (fr : BitVec 63) (i o : BitVec 6) (t : Option Trail) (s : State) :
    (openSession e fr i o t s).outBase = s.outBase := rfl
@[simp] theorem openSession_inBase (e : BitVec 6) (fr : BitVec 63) (i o : BitVec 6) (t : Option Trail) (s : State) :
    (openSession e fr i o t s).inBase = s.arg0 := rfl
@[simp] theorem openSession_phase (e : BitVec 6) (fr : BitVec 63) (i o : BitVec 6) (t : Option Trail) (s : State) :
    (openSession e fr i o t s).phase = .active := rfl
@[simp] theorem openSession_fsm (e : BitVec 6) (fr : BitVec 63) (i o : BitVec 6) (t : Option Trail) (s : State) :
    (openSession e fr i o t s).fsm = .readSymbol := rfl
@[simp] theorem openSession_totalLen (e : BitVec 6) (fr : BitVec 63) (i o : BitVec 6) (t : Option Trail) (s : State) :
    (openSession e fr i o t s).totalLen = s.arg1 := rfl
@[simp] theorem openSession_hdrOff (e : BitVec 6) (fr : BitVec 63) (i o : BitVec 6) (t : Option Trail) (s : State) :
    (openSession e fr i o t s).hdrOff = s.arg2 := rfl
@[simp] theorem openSession_dataStart (e : BitVec 6) (fr : BitVec 63) (i o : BitVec 6) (t : Option Trail) (s : State) :
    (openSession e fr i o t s).dataStart = BitVec.ofNat 64 (headerEnd s) := rfl
@[simp] theorem openSession_decompSize (e : BitVec 6) (fr : BitVec 63) (i o : BitVec 6) (t : Option Trail) (s : State) :
    (openSession e fr i o t s).decompSize = BitVec.ofNat 64 (decompSizeOf e fr) := rfl
@[simp] theorem openSession_inMask (e : BitVec 6) (fr : BitVec 63) (i o : BitVec 6) (t : Option Trail) (s : State) :
    (openSession e fr i o t s).inMask = BitVec.ofNat 64 (windowMask i) := rfl
@[simp] theorem openSession_outMask (e : BitVec 6) (fr : BitVec 63) (i o : BitVec 6) (t : Option Trail) (s : State) :
    (openSession e fr i o t s).outMask = BitVec.ofNat 64 (windowMask o) := rfl
@[simp] theorem openSession_invMaskIn (e : BitVec 6) (fr : BitVec 63) (i o : BitVec 6) (t : Option Trail) (s : State) :
    (openSession e fr i o t s).invMaskIn = BitVec.ofNat 64 (windowMask i) := rfl
@[simp] theorem openSession_invMaskOut (e : BitVec 6) (fr : BitVec 63) (i o : BitVec 6) (t : Option Trail) (s : State) :
    (openSession e fr i o t s).invMaskOut = BitVec.ofNat 64 (windowMask o) := rfl
@[simp] theorem openSession_lenBytes (e : BitVec 6) (fr : BitVec 63) (i o : BitVec 6) (t : Option Trail) (s : State) :
    (openSession e fr i o t s).lenBytes = BitVec.ofNat 4 (lenBytesOf t) := rfl
@[simp] theorem openSession_chunked (e : BitVec 6) (fr : BitVec 63) (i o : BitVec 6) (t : Option Trail) (s : State) :
    (openSession e fr i o t s).chunked = decide (i.toNat ≠ Config.winUnconstrained) := rfl
@[simp] theorem openSession_inByte (e : BitVec 6) (fr : BitVec 63) (i o : BitVec 6) (t : Option Trail) (s : State) :
    (openSession e fr i o t s).inByte = BitVec.ofNat 64 (headerEnd s) := rfl
@[simp] theorem openSession_inBitoff (e : BitVec 6) (fr : BitVec 63) (i o : BitVec 6) (t : Option Trail) (s : State) :
    (openSession e fr i o t s).inBitoff = 0 := rfl
@[simp] theorem openSession_outCur (e : BitVec 6) (fr : BitVec 63) (i o : BitVec 6) (t : Option Trail) (s : State) :
    (openSession e fr i o t s).outCur = 0 := rfl
@[simp] theorem openSession_reqIn (e : BitVec 6) (fr : BitVec 63) (i o : BitVec 6) (t : Option Trail) (s : State) :
    (openSession e fr i o t s).reqIn = BitVec.ofNat 64 (initReqIn i t s) := rfl
@[simp] theorem openSession_nextBnd (e : BitVec 6) (fr : BitVec 63) (i o : BitVec 6) (t : Option Trail) (s : State) :
    (openSession e fr i o t s).nextBnd = BitVec.ofNat 64 (initNextBnd i s) := rfl
@[simp] theorem openSession_availIn (e : BitVec 6) (fr : BitVec 63) (i o : BitVec 6) (t : Option Trail) (s : State) :
    (openSession e fr i o t s).availIn = 0 := rfl
@[simp] theorem openSession_availOut (e : BitVec 6) (fr : BitVec 63) (i o : BitVec 6) (t : Option Trail) (s : State) :
    (openSession e fr i o t s).availOut = 0 := rfl
@[simp] theorem openSession_acc (e : BitVec 6) (fr : BitVec 63) (i o : BitVec 6) (t : Option Trail) (s : State) :
    (openSession e fr i o t s).acc = s.acc := rfl
@[simp] theorem openSession_nbits (e : BitVec 6) (fr : BitVec 63) (i o : BitVec 6) (t : Option Trail) (s : State) :
    (openSession e fr i o t s).nbits = 0 := rfl
@[simp] theorem openSession_shortRom (e : BitVec 6) (fr : BitVec 63) (i o : BitVec 6) (t : Option Trail) (s : State) :
    (openSession e fr i o t s).shortRom = s.shortRom := rfl
@[simp] theorem openSession_longRom (e : BitVec 6) (fr : BitVec 63) (i o : BitVec 6) (t : Option Trail) (s : State) :
    (openSession e fr i o t s).longRom = s.longRom := rfl
@[simp] theorem openSession_inMem (e : BitVec 6) (fr : BitVec 63) (i o : BitVec 6) (t : Option Trail) (s : State) :
    (openSession e fr i o t s).inMem = s.inMem := rfl
@[simp] theorem openSession_outMem (e : BitVec 6) (fr : BitVec 63) (i o : BitVec 6) (t : Option Trail) (s : State) :
    (openSession e fr i o t s).outMem = s.outMem := rfl
@[simp] theorem openSession_activity (e : BitVec 6) (fr : BitVec 63) (i o : BitVec 6) (t : Option Trail) (s : State) :
    (openSession e fr i o t s).activity = .idle := rfl
@[simp] theorem openSession_work (e : BitVec 6) (fr : BitVec 63) (i o : BitVec 6) (t : Option Trail) (s : State) :
    (openSession e fr i o t s).work = Work.none := rfl
@[simp] theorem openSession_freeCount (e : BitVec 6) (fr : BitVec 63) (i o : BitVec 6) (t : Option Trail) (s : State) :
    (openSession e fr i o t s).freeCount = s.freeCount := rfl

/-! ### raiseStatus: the two fields that depend on the command -/

theorem raiseStatus_phase_of_init (st : Status) (s : State) (h : s.activity = .init) :
    (raiseStatus st s).phase = .noSession := by simp [raiseStatus, h]

theorem raiseStatus_phase_of_decode (st : Status) (s : State) (h : s.activity ≠ .init) :
    (raiseStatus st s).phase = if st = .corruptStream then .failed else s.phase := by
  unfold raiseStatus; split
  · contradiction
  · rfl

theorem raiseStatus_ret0_of_init (st : Status) (s : State) (h : s.activity = .init) :
    (raiseStatus st s).ret0 = 0 := by simp [raiseStatus, h]

theorem raiseStatus_ret0_of_decode (st : Status) (s : State) (h : s.activity ≠ .init) :
    (raiseStatus st s).ret0 = s.ret0 := by
  unfold raiseStatus; split
  · contradiction
  · rfl

/-! ### The format -/

@[simp] theorem format_setWork (w : Work) (s : State) : (setWork w s).format = s.format := rfl
@[simp] theorem format_beginSymbol (s : State) : (beginSymbol s).format = s.format := rfl
@[simp] theorem format_endCommand (st : Status) (s : State) : (endCommand st s).format = s.format := rfl
@[simp] theorem format_stopLoop (st : Status) (s : State) : (stopLoop st s).format = s.format := rfl
@[simp] theorem format_enterDecode (s : State) : (enterDecode s).format = s.format := rfl
@[simp] theorem format_commitSymbol (p : List (Nat × Byte)) (w : Work) (n : Nat) (s : State) :
    (commitSymbol p w n s).format = s.format := rfl
@[simp] theorem format_raiseStatus (st : Status) (s : State) : (raiseStatus st s).format = s.format := by
  simp [State.format]

/-! ### The environment of a DECODE -/

@[simp] theorem decodeEnv_setWork (w : Work) (s : State) : decodeEnv (setWork w s) = decodeEnv s := rfl
@[simp] theorem decodeEnv_beginSymbol (s : State) : decodeEnv (beginSymbol s) = decodeEnv s := rfl
@[simp] theorem decodeEnv_chunked (s : State) : (decodeEnv s).chunked = s.chunked := rfl
@[simp] theorem decodeEnv_inMask (s : State) : (decodeEnv s).inMask = s.inMask.toNat := rfl
@[simp] theorem decodeEnv_total (s : State) : (decodeEnv s).total = s.totalLen.toNat := rfl
@[simp] theorem decodeEnv_avail (s : State) : (decodeEnv s).avail = s.availIn.toNat := rfl
@[simp] theorem decodeEnv_totalStatus (s : State) : (decodeEnv s).totalStatus = .corruptStream := rfl
@[simp] theorem decodeEnv_base (s : State) : (decodeEnv s).base = s.inByte.toNat := rfl
@[simp] theorem decodeEnv_lenBytes (s : State) : (decodeEnv s).lenBytes = s.lenBytes.toNat := rfl
@[simp] theorem decodeEnv_stride (s : State) : (decodeEnv s).stride = s.invMaskIn.toNat + 1 := rfl

end Sys2Proof.Machine
end

