-- ==== Sys2Proof/Laws/Operands.lean ====
section
/-! SUPPORT. One lemma per shared operation of the meanings: everything it can do. -/

namespace Sys2Proof.Machine

/-! ### The checks -/

/-- Two checks raise nothing exactly when neither does. -/
theorem firstOf_eq_none {a b : Option Status} : firstOf a b = none ↔ a = none ∧ b = none := by
  cases a <;> simp [firstOf]

/-- Checks 1 and 2 pass (spec R98). -/
theorem checkLength_eq_none {s : State} {n : Nat} :
    checkLength s n = none ↔ s.outCur.toNat + n ≤ s.decompSize.toNat ∧
      (s.outMask.toNat ≠ all1 → n ≤ s.outMask.toNat + 1) := by
  unfold checkLength; split_ifs <;> simp <;> omega

/-- Checks 3 and 4 pass (spec R98). -/
theorem checkDistance_eq_none {s : State} {d : Nat} :
    checkDistance s d = none ↔ d ≤ s.outCur.toNat ∧ (s.outMask.toNat ≠ all1 → d ≤ s.outMask.toNat + 1) := by
  unfold checkDistance; split_ifs <;> simp <;> omega

/-- Check 5 passes (spec R98). -/
theorem checkRoom_eq_none {s : State} {n : Nat} :
    checkRoom s n = none ↔ s.outCur.toNat + n ≤ s.availOut.toNat := by
  unfold checkRoom; split_ifs <;> simp <;> omega

/-- A match passes its checks. -/
theorem matchChecks_eq_none {s : State} {n d : Nat} :
    matchChecks s n d = none ↔ checkLength s n = none ∧ checkDistance s d = none ∧ checkRoom s n = none := by
  simp [matchChecks, firstOf_eq_none]

/-- A literal run passes the checks before its bytes. -/
theorem literalChecks_eq_none {s : State} {n : Nat} :
    literalChecks s n = none ↔ checkLength s n = none ∧ checkRoom s n = none := by
  simp [literalChecks, firstOf_eq_none]

/-- The loop goes on exactly when no test stops it (spec R78). -/
theorem loopTest_eq_none {s : State} :
    loopTest s = none ↔ s.outCur ≠ s.decompSize ∧ s.reqIn.toNat ≤ s.availIn.toNat ∧ reqOut s ≤ s.availOut.toNat := by
  unfold loopTest
  split_ifs with h1 h2 h3
  · simp [h1]
  · simp; omega
  · simp; omega
  · simpa [h1] using (by omega : s.reqIn.toNat ≤ s.availIn.toNat ∧ reqOut s ≤ s.availOut.toNat)

/-- The statuses by which the loop stops (spec R78). -/
theorem loopTest_eq_some {s : State} {st : Status} (h : loopTest s = some st) :
    (st = .done ∧ s.outCur = s.decompSize) ∨ (st = .needMoreInput ∧ s.availIn.toNat < s.reqIn.toNat) ∨
      (st = .needMoreOutput ∧ s.availOut.toNat < reqOut s) := by
  unfold loopTest at h; split_ifs at h <;> simp_all

/-! ### The copies -/

/-- A match of length n produces n bytes. -/
@[simp] theorem matchBytes_length (m : Memory) (mask c d n : Nat) : (matchBytes m mask c d n).length = n := by
  induction n with
  | zero => rfl
  | succ n ih => simp [matchBytes, ih]

/-- A byte of a match does not depend on the bytes after it. -/
theorem matchBytes_getD_succ (m : Memory) (mask c d n i : Nat) (h : i < n) :
    (matchBytes m mask c d (n + 1)).getD i Memory.blank = (matchBytes m mask c d n).getD i Memory.blank := by
  simp [matchBytes, List.getD_eq_getElem?_getD, List.getElem?_append_left, h]

/-- The bytes of a match, tiled: byte i is the byte of position `c - d + (i mod d)` (spec R97). -/
theorem matchBytes_getD (m : Memory) (mask c d n : Nat) (hd : 1 ≤ d) (hc : d ≤ c) (i : Nat) (h : i < n) :
    (matchBytes m mask c d n).getD i Memory.blank = m.read (offsetOf (c - d + i % d) mask) := by
  induction n generalizing i with
  | zero => omega
  | succ n ih =>
    by_cases hi : i < n
    · rw [matchBytes_getD_succ _ _ _ _ _ _ hi, ih i hi]
    · obtain rfl : i = n := by omega
      simp only [matchBytes, List.getD_eq_getElem?_getD]
      rw [List.getElem?_append_right (by simp)]
      simp only [matchBytes_length, Nat.sub_self, List.getElem?_cons_zero, Option.getD_some]
      split
      · have h1 : c + i - d - c = i - d := by omega
        rw [h1, ← List.getD_eq_getElem?_getD, ih (i - d) (by omega), ← Nat.mod_eq_sub_mod (by omega)]
      · rw [Nat.mod_eq_of_lt (by omega)]
        congr 2; omega

/-- The pending writes of a run: as many as bytes. -/
@[simp] theorem pendingWrites_length (mask c : Nat) (bs : List Byte) : (pendingWrites mask c bs).length = bs.length := by
  induction bs generalizing c with
  | nil => rfl
  | cons b bs ih => simp [pendingWrites, ih]

/-- Byte i of a run is pending at the offset of position `c + i`. -/
theorem pendingWrites_mem {mask c : Nat} {bs : List Byte} {x : Nat × Byte} :
    x ∈ pendingWrites mask c bs ↔ ∃ i, i < bs.length ∧ x = (offsetOf (c + i) mask, bs.getD i Memory.blank) := by
  induction bs generalizing c with
  | nil => simp [pendingWrites]
  | cons b bs ih =>
    simp only [pendingWrites, List.mem_cons, ih, List.length_cons]
    constructor
    · rintro (rfl | ⟨i, hi, rfl⟩)
      · exact ⟨0, by omega, by simp⟩
      · exact ⟨i + 1, by omega, by simp [Nat.add_assoc, Nat.add_comm 1]⟩
    · rintro ⟨i, hi, rfl⟩
      cases i with
      | zero => exact .inl (by simp)
      | succ i => exact .inr ⟨i, by omega, by simp [Nat.add_assoc, Nat.add_comm 1]⟩

/-- The offsets of a run that is no longer than its window are distinct (spec R37). -/
theorem pendingWrites_nodup {k c : Nat} {bs : List Byte} (h : bs.length ≤ 2 ^ k) :
    ((pendingWrites (2 ^ k - 1) c bs).map Prod.fst).Nodup := by
  induction bs generalizing c with
  | nil => simp [pendingWrites]
  | cons b bs ih =>
    simp only [pendingWrites, List.map_cons, List.nodup_cons]
    simp only [List.length_cons] at h
    refine ⟨fun hm => ?_, ih (by omega)⟩
    obtain ⟨x, hx, he⟩ := List.mem_map.1 hm
    obtain ⟨i, hi, rfl⟩ := pendingWrites_mem.1 hx
    simp only [offsetOf_pow_two] at he
    have : (c + 1 + i) % 2 ^ k = c % 2 ^ k := he
    have hlt : 1 + i < 2 ^ k := by omega
    have hmod : (c + (1 + i)) % 2 ^ k = (c + 0) % 2 ^ k := by simpa [Nat.add_assoc] using this
    have := Nat.ModEq.add_left_cancel' c hmod
    simp [Nat.ModEq, Nat.mod_eq_of_lt hlt] at this

/-- CopyMatch: either a check raises its status, or the step commits (spec R89, R97). -/
theorem copyMatch_eq (n d : Nat) (s : State) :
    (∃ st, matchChecks s n d = some st ∧ copyMatch n d s = .next (raiseStatus st s)) ∨
      (matchChecks s n d = none ∧ copyMatch n d s = .next (commitSymbol
        (pendingWrites s.outMask.toNat s.outCur.toNat (matchBytes s.outMem s.outMask.toNat s.outCur.toNat d n))
        s.work n s)) := by
  unfold copyMatch
  cases h : matchChecks s n d with
  | some st => exact .inl ⟨st, rfl, rfl⟩
  | none => exact .inr ⟨rfl, rfl⟩

/-- CopyLiteralRun: a check raises, a fetch raises, or the step commits (spec R89, R96). -/
theorem copyLiteralRun_eq (n : Nat) (s : State) :
    (∃ st, literalChecks s n = some st ∧ copyLiteralRun n s = .next (raiseStatus st s)) ∨
      (literalChecks s n = none ∧ ∃ st, takeBytes s.inMem (decodeEnv s) n (alignWork s.work) = .error st ∧
        copyLiteralRun n s = .next (raiseStatus st s)) ∨
      (literalChecks s n = none ∧ ∃ bs w, takeBytes s.inMem (decodeEnv s) n (alignWork s.work) = .ok (bs, w) ∧
        copyLiteralRun n s = .next (commitSymbol (pendingWrites s.outMask.toNat s.outCur.toNat bs) w n s)) := by
  unfold copyLiteralRun
  cases h : literalChecks s n with
  | some st => exact .inl ⟨st, rfl, rfl⟩
  | none =>
    cases ht : takeBytes s.inMem (decodeEnv s) n (alignWork s.work) with
    | error st => exact .inr (.inl ⟨rfl, st, rfl, rfl⟩)
    | ok q => obtain ⟨bs, w⟩ := q; exact .inr (.inr ⟨rfl, bs, w, rfl, rfl⟩)

/-! ### The other meanings -/

/-- CONT: check (d) raises, or W moves over the field (spec R110). -/
theorem execCont_eq (v : Word) (s : State) :
    (∃ st, contApply (decodeEnv s) v.toNat s.work = .error st ∧ execCont v s = .next (raiseStatus st s)) ∨
      (∃ w, contApply (decodeEnv s) v.toNat s.work = .ok w ∧
        execCont v s = .next { setWork w s with activity := .symbol }) := by
  unfold execCont
  cases h : contApply (decodeEnv s) v.toNat s.work with
  | error st => exact .inl ⟨st, rfl, rfl⟩
  | ok w => exact .inr ⟨w, rfl, rfl⟩

/-- HDR: a test raises, or the session opens (spec R73 to R76). -/
theorem execHdr_eq (e : BitVec 6) (fr : BitVec 63) (i o : BitVec 6) (t : Option Trail) (s : State) :
    (∃ st, headerChecks i t s = some st ∧ execHdr e fr i o t s = .next (raiseStatus st s)) ∨
      (headerChecks i t s = none ∧ execHdr e fr i o t s = .next (openSession e fr i o t s)) := by
  unfold execHdr
  cases h : headerChecks i t s with
  | some st => exact .inl ⟨st, rfl, rfl⟩
  | none => exact .inr ⟨rfl, rfl⟩

/-- The header's tests pass (spec R73, R75). -/
theorem headerChecks_eq_none {i : BitVec 6} {t : Option Trail} {s : State} :
    headerChecks i t s = none ↔ Config.inWinMin ≤ i.toNat ∧
      (i.toNat ≠ Config.winUnconstrained → initReqIn i t s ≤ min (initNextBnd i s) s.arg1.toNat) := by
  unfold headerChecks; split_ifs <;> simp <;> omega

/-- The only status of the header's tests is `CorruptStream`. -/
theorem headerChecks_eq_some {i : BitVec 6} {t : Option Trail} {s : State} {st : Status}
    (h : headerChecks i t s = some st) : st = .corruptStream := by
  unfold headerChecks at h; split_ifs at h <;> simp_all

/-- INIT: refused, cut short by the fit check, or on to the header (spec R70, R71). -/
theorem execInit_eq (s : State) :
    (s.arg1.toNat ≥ Config.totalLenBound ∧ execInit s = .refused .totalLenTooLarge) ∨
      (s.arg1.toNat < Config.totalLenBound ∧ headerEnd s > s.arg1.toNat ∧
        execInit s = .next (raiseStatus .headerTruncated (beginInit s))) ∨
      (s.arg1.toNat < Config.totalLenBound ∧ headerEnd s ≤ s.arg1.toNat ∧ execInit s = .next (beginInit s)) := by
  unfold execInit; split_ifs with h1 h2
  · exact .inl ⟨h1, rfl⟩
  · exact .inr (.inl ⟨by omega, h2, rfl⟩)
  · exact .inr (.inr ⟨by omega, by omega, rfl⟩)

/-! ### By form -/

/-- A symbol's meaning is one of the two copies, by its format (spec R91, R92, R95, R99). -/
theorem exec_symbol_eq (i : Instr) (s : State) :
    match i.view with
    | .short idx x dn df => exec i s = copyMatch (codedLength (s.format.short idx) x.toNat) (distanceOf dn df) s
    | .extended _ x dn df => exec i s = copyMatch (extendedLength x) (distanceOf dn df) s
    | .literal idx x => exec i s = copyLiteralRun (codedLength (s.format.long idx) x.toNat) s
    | .long idx x dn df => exec i s = copyMatch (codedLength (s.format.long idx) x.toNat) (distanceOf dn df) s
    | .cont v => exec i s = execCont v s
    | .header e fr a b t => exec i s = execHdr e fr a b t s
    | .init => exec i s = execInit s
    | .decode => exec i s = execDecode s := by
  cases i <;> rfl

/-- Every meaning answers a next state, but for an INIT with `totalLen >= 2^63` (spec R139). -/
theorem exec_next_or_refused (i : Instr) (s : State) :
    (∃ t, exec i s = .next t) ∨
      (i = .init ∧ s.arg1.toNat ≥ Config.totalLenBound ∧ exec i s = .refused .totalLenTooLarge) := by
  have h := exec_symbol_eq i s
  cases hv : i.view with
  | short idx x dn df =>
    simp only [hv] at h; rw [h]
    rcases copyMatch_eq _ _ s with ⟨_, _, e⟩ | ⟨_, e⟩ <;> exact .inl ⟨_, e⟩
  | extended idx x dn df =>
    simp only [hv] at h; rw [h]
    rcases copyMatch_eq _ _ s with ⟨_, _, e⟩ | ⟨_, e⟩ <;> exact .inl ⟨_, e⟩
  | literal idx x =>
    simp only [hv] at h; rw [h]
    rcases copyLiteralRun_eq _ s with ⟨_, _, e⟩ | ⟨_, _, _, e⟩ | ⟨_, _, _, _, e⟩ <;> exact .inl ⟨_, e⟩
  | long idx x dn df =>
    simp only [hv] at h; rw [h]
    rcases copyMatch_eq _ _ s with ⟨_, _, e⟩ | ⟨_, e⟩ <;> exact .inl ⟨_, e⟩
  | cont v =>
    simp only [hv] at h; rw [h]
    rcases execCont_eq v s with ⟨_, _, e⟩ | ⟨_, _, e⟩ <;> exact .inl ⟨_, e⟩
  | header e fr a b t =>
    simp only [hv] at h; rw [h]
    rcases execHdr_eq e fr a b t s with ⟨_, _, e⟩ | ⟨_, e⟩ <;> exact .inl ⟨_, e⟩
  | init =>
    have hi : i = .init := by cases i <;> first | rfl | cases hv
    subst hi
    rcases execInit_eq s with ⟨h1, e⟩ | ⟨_, _, e⟩ | ⟨_, _, e⟩
    · exact .inr ⟨rfl, h1, e⟩
    · exact .inl ⟨_, e⟩
    · exact .inl ⟨_, e⟩
  | decode =>
    simp only [hv] at h; rw [h]
    unfold execDecode; split <;> exact .inl ⟨_, rfl⟩

/-! ### The step -/

/-- A step is a fetch and then a meaning. -/
theorem step_of_run {s s' : State} {i : Instr} (h : fetch s = .run i s') : step s = exec i s' := by simp [step, h]

/-- A step that runs no instruction. -/
theorem step_of_stop {s t : State} (h : fetch s = .stop t) : step s = .next t := by simp [step, h]

/-- With no command issued the engine keeps its state (spec R138). -/
theorem step_idle (s : State) (ha : s.activity = .idle) (hc : s.cmd = 0) : step s = .next s := by
  have : fetch s = .stop { s with cmd := 0 } := by simp [fetch, ha, hc, decodeCommand]
  rw [step_of_stop this, ← hc]

end Sys2Proof.Machine
end

