-- ==== Sys2Proof/Laws/Step.lean ====
section
/-! SUPPORT. What a step can do, said once: the cases of a fetch, of raising a status, and of a command. -/

namespace Sys2Proof.Machine

/-- Raising a status outside INIT ends the DECODE as R79 and R130 say. -/
theorem raiseStatus_eq_failedStep {s : State} (st : Status) (h : s.activity ≠ .init) :
    raiseStatus st s = failedStep st s := by
  unfold raiseStatus
  split
  · rename_i h'; exact absurd h' h
  · rfl

/-- Raising a status in INIT ends it without a session (spec R76). -/
theorem raiseStatus_eq_failedInit {s : State} (st : Status) (h : s.activity = .init) :
    raiseStatus st s = failedInit st s := by
  unfold raiseStatus; rw [h]; rfl

/-- A failed step does not depend on the working copy nor on `FSM`. -/
@[simp] theorem failedStep_work_fsm (st : Status) (s : State) (w : Work) (f : Fsm) :
    failedStep st { s with work := w, fsm := f } = failedStep st s := rfl

/-- What a symbol fetch does. -/
theorem fetchSymbol_cases (s : State) :
    (∃ st, runParse s.inMem (decodeEnv s) (symbolParse s.format) s.work = .error st ∧
      fetchSymbol s = .stop (raiseStatus st s)) ∨
    (∃ i w, runParse s.inMem (decodeEnv s) (symbolParse s.format) s.work = .ok (i, w) ∧
      fetchSymbol s = .run i { s with work := w, fsm := fsmRun s.fsm (readEvents i) }) := by
  unfold fetchSymbol
  cases h : runParse s.inMem (decodeEnv s) (symbolParse s.format) s.work with
  | error st => exact .inl ⟨st, rfl, rfl⟩
  | ok q => exact .inr ⟨q.1, q.2, rfl, rfl⟩

/-- What a header fetch does. -/
theorem fetchHeader_cases (s : State) :
    (∃ st, runParse s.inMem (headerEnv s) headerParse s.work = .error st ∧
      fetchHeader s = .stop (raiseStatus st s)) ∨
    (∃ i w, runParse s.inMem (headerEnv s) headerParse s.work = .ok (i, w) ∧ fetchHeader s = .run i (setWork w s)) := by
  unfold fetchHeader
  cases h : runParse s.inMem (headerEnv s) headerParse s.work with
  | error st => exact .inl ⟨st, rfl, rfl⟩
  | ok q => exact .inr ⟨q.1, q.2, rfl, rfl⟩

/-- What a continuation fetch does. -/
theorem fetchCont_cases (s : State) :
    (∃ st, contChecks (decodeEnv s) s.work = some st ∧ fetchCont s = .stop (raiseStatus st s)) ∨
    (contChecks (decodeEnv s) s.work = none ∧
      fetchCont s = .run (decodeCont (contBytes s.inMem (decodeEnv s) s.work)) s) := by
  unfold fetchCont readCont
  cases h : contChecks (decodeEnv s) s.work with
  | some st => exact .inl ⟨st, rfl, rfl⟩
  | none => exact .inr ⟨rfl, rfl⟩

/-- What a turn of the loop does (spec R78, R111). -/
theorem fetchTurn_cases (s : State) :
    (∃ st, loopTest s = some st ∧ fetchTurn s = .stop (stopLoop st s)) ∨
    (loopTest s = none ∧ onBoundary (decodeEnv s) (copyWork s) = true ∧ fetchTurn s = fetchCont (beginSymbol s)) ∨
    (loopTest s = none ∧ onBoundary (decodeEnv s) (copyWork s) = false ∧ fetchTurn s = fetchSymbol (beginSymbol s)) := by
  unfold fetchTurn
  cases h : loopTest s with
  | some st => exact .inl ⟨st, rfl, rfl⟩
  | none =>
    cases hb : onBoundary (decodeEnv s) (copyWork s) with
    | true => exact .inr (.inl ⟨rfl, rfl, by simp⟩)
    | false => exact .inr (.inr ⟨rfl, rfl, by simp⟩)

/-- What the next step runs, by the activity. -/
theorem fetch_idle_init {s : State} (ha : s.activity = .idle) (hc : s.cmd = 1) : fetch s = .run .init { s with cmd := 0 } := by
  simp [fetch, ha, hc, decodeCommand]

/-- A DECODE taken up. -/
theorem fetch_idle_decode {s : State} (ha : s.activity = .idle) (hc : s.cmd = 2) :
    fetch s = .run .decode { s with cmd := 0 } := by
  simp [fetch, ha, hc, decodeCommand]

/-- No command, or a reserved code. -/
theorem fetch_idle_none {s : State} (ha : s.activity = .idle) (hc : s.cmd = 0 ∨ s.cmd = 3) :
    fetch s = .stop { s with cmd := 0 } := by
  rcases hc with hc | hc <;> simp [fetch, ha, hc, decodeCommand]

@[simp] theorem fetch_init {s : State} (ha : s.activity = .init) : fetch s = fetchHeader s := by simp [fetch, ha]

@[simp] theorem fetch_decode {s : State} (ha : s.activity = .decode) : fetch s = fetchTurn s := by simp [fetch, ha]

@[simp] theorem fetch_symbol {s : State} (ha : s.activity = .symbol) : fetch s = fetchSymbol s := by simp [fetch, ha]

/-- A run of no step. -/
theorem run_zero (s : State) : Host.Core.run Sys2Proof.core 0 s = .next s := rfl

/-- A run of one step more, on any machine. -/
theorem core_run_succ (M : Host.Core) {s t : M.State} (k : Nat) (h : M.step s = .next t) : M.run (k + 1) s = M.run k t := by
  rw [Host.Core.run, h]

/-- A run of one step more. -/
theorem run_succ {s t : State} (k : Nat) (h : step s = .next t) :
    Host.Core.run Sys2Proof.core (k + 1) s = Host.Core.run Sys2Proof.core k t :=
  core_run_succ Sys2Proof.core k h

/-- An idle machine stays where it is. -/
theorem run_idle {s : State} (k : Nat) (h : s.busy = false) : Host.Core.run Sys2Proof.core k s = .next s := by
  have hs : step s = .next s := by
    simp only [State.busy, Bool.or_eq_false_iff, bne_eq_false_iff_eq] at h
    exact step_idle s h.1 h.2
  induction k with
  | zero => rfl
  | succ k ih => exact (run_succ k hs).trans ih

end Sys2Proof.Machine
end

