-- ==== Sys2Proof/Tests/Slice0.lean ====
section
/-! SUPPORT. The model's own tests: ill-formed terms refused, words of every row decoded, single steps on the vectors of
spec 95_test_vectors, and for each statement with hypotheses a concrete case that meets them. -/

namespace Sys2Proof.Tests

open Sys2Proof Sys2Proof.Machine

/-! ### Ill-formed terms -/

/-- XTRA of SMATCH.8 has one bit (R53). -/
theorem test_wf_short_extra_too_wide : (Instr.smatch8 2 0 0).wf (defaultFormat 0) = false := by decide

/-- Entry 15 is the sentinel (R53): it is no plain SMATCH. -/
theorem test_wf_short_on_sentinel : (Instr.smatch15 0 0 0).wf (defaultFormat 0) = false := by decide

/-- Entry 3 is no sentinel: it has no SMATCHX. -/
theorem test_wf_extended_off_sentinel : (Instr.smatchx 3 0 0 0).wf (defaultFormat 0) = false := by decide

/-- DFRAC has DN bits (R52). -/
theorem test_wf_distance_too_wide : (Instr.smatchx 15 0 3 8).wf (defaultFormat 0) = false := by decide

/-- XTRA of LITRUN.16 has two bits (R54). -/
theorem test_wf_literal_extra_too_wide : (Instr.litrun16 4).wf (defaultFormat 0) = false := by decide

/-- XTRA of LMATCH.32 has three bits (R54). -/
theorem test_wf_long_extra_too_wide : (Instr.lmatch32 8 0 0).wf (defaultFormat 0) = false := by decide

/-- A literal format with a match prefix, and a match format with a literal prefix (R90). -/
theorem test_wf_long_class_split : (View.literal 32 0).wf (defaultFormat 0) = false ∧
    (View.long 31 0 0 0).wf (defaultFormat 0) = false := by decide

/-- V has `LEN_BYTES` bytes (R57). -/
theorem test_wf_cont_too_wide : (Instr.cont 256).wf (defaultFormat 1) = false := by decide

/-- SZFRAC has SZEXP bits (R51). -/
theorem test_wf_size_too_wide : (Instr.hdr 5 32 63 63 none).wf (defaultFormat 0) = false := by decide

/-- TRAIL is absent with an unconstrained window and present with a constrained one (R51). -/
theorem test_wf_trail_presence : (Instr.hdr 5 0 63 63 (some ⟨0, 0⟩)).wf (defaultFormat 0) = false ∧
    (Instr.hdr 5 0 12 12 none).wf (defaultFormat 0) = false ∧
    (Instr.hdr 5 0 2 12 (some ⟨0, 0⟩)).wf (defaultFormat 0) = false := by decide

/-- T has `LENB + 1` bytes (R51). -/
theorem test_wf_trail_too_wide : (Instr.hdr 5 0 12 12 (some ⟨0, 256⟩)).wf (defaultFormat 0) = false := by decide

/-! ### Words written out from the encodings -/

/-- Every word of the list decodes to the instruction beside it. -/
def wordsDecode (rows : List (Nat × Nat × Instr)) : Bool :=
  rows.all fun r => decide (decodeTableWord r.1 r.2.1 = some r.2.2)

/-- SMATCH.0 to SMATCH.14 and SMATCHX: `SEL`, `PFX4` from R53 and R63, then `XTRA` or `EXT4`, `DN`, `DFRAC` as R52 lays them out. -/
theorem test_decode_smatch_words : wordsDecode
    [(24, 0x420, .smatch0 0 1 1),
     (24, 0x842, .smatch1 0 2 2),
     (24, 0x1c64, .smatch2 0 3 7),
     (24, 0x3886, .smatch3 0 4 14),
     (24, 0x7ca8, .smatch4 0 5 31),
     (24, 0x2a, .smatch5 0 1 0),
     (24, 0xc4c, .smatch6 0 2 3),
     (24, 0x186e, .smatch7 0 3 6),
     (24, 0x7930, .smatch8 1 4 15),
     (24, 0xf172, .smatch9 1 5 30),
     (24, 0x874, .smatch10 1 1 1),
     (24, 0x856, .smatch11 0 2 2),
     (24, 0x71f8, .smatch12 3 3 7),
     (24, 0x1c4fa, .smatch13 7 4 14),
     (24, 0x7cbfc, .smatch14 15 5 31),
     (24, 0x1473e, .smatchx 15 9 3 5)] = true := by decide

/-- LITRUN.0 to LITRUN.15 (R52, R54). -/
theorem test_decode_litrun_words_low : wordsDecode
    [(24, 0x1, .litrun0 0),
     (24, 0x3, .litrun1 0),
     (24, 0x5, .litrun2 0),
     (24, 0x7, .litrun3 0),
     (24, 0x9, .litrun4 0),
     (24, 0xb, .litrun5 0),
     (24, 0xd, .litrun6 0),
     (24, 0xf, .litrun7 0),
     (24, 0x11, .litrun8 0),
     (24, 0x13, .litrun9 0),
     (24, 0x15, .litrun10 0),
     (24, 0x17, .litrun11 0),
     (24, 0x19, .litrun12 0),
     (24, 0x1b, .litrun13 0),
     (24, 0x1d, .litrun14 0),
     (24, 0x1f, .litrun15 0)] = true := by decide

/-- LITRUN.16 to LITRUN.31 (R52, R54). -/
theorem test_decode_litrun_words_high : wordsDecode
    [(24, 0x1a1, .litrun16 3),
     (24, 0x1a3, .litrun17 3),
     (24, 0x1a5, .litrun18 3),
     (24, 0x1a7, .litrun19 3),
     (24, 0x1a9, .litrun20 3),
     (24, 0x1ab, .litrun21 3),
     (24, 0x1ad, .litrun22 3),
     (24, 0x1af, .litrun23 3),
     (24, 0x731, .litrun24 14),
     (24, 0x733, .litrun25 14),
     (24, 0x735, .litrun26 14),
     (24, 0x737, .litrun27 14),
     (24, 0x1f39, .litrun28 62),
     (24, 0x7f3b, .litrun29 254),
     (24, 0x7ff3d, .litrun30 4094),
     (24, 0x7fff3f, .litrun31 65534)] = true := by decide

/-- LMATCH.32 to LMATCH.47 (R52, R54). -/
theorem test_decode_lmatch_words_low : wordsDecode
    [(56, 0x38ec1, .lmatch32 5 3 7),
     (56, 0x712c3, .lmatch33 5 4 14),
     (56, 0xf96c5, .lmatch34 5 5 31),
     (56, 0x1f1ac7, .lmatch35 5 6 62),
     (56, 0x86c9, .lmatch36 5 1 1),
     (56, 0x10acb, .lmatch37 5 2 2),
     (56, 0x38ecd, .lmatch38 5 3 7),
     (56, 0x712cf, .lmatch39 5 4 14),
     (56, 0x3e5ed1, .lmatch40 29 5 31),
     (56, 0x7c6ed3, .lmatch41 29 6 62),
     (56, 0x21ed5, .lmatch42 29 1 1),
     (56, 0x42ed7, .lmatch43 29 2 2),
     (56, 0xe3ed9, .lmatch44 29 3 7),
     (56, 0x1c4edb, .lmatch45 29 4 14),
     (56, 0x3e5edd, .lmatch46 29 5 31),
     (56, 0x7c6edf, .lmatch47 29 6 62)] = true := by decide

/-- LMATCH.48 to LMATCH.63 (R52, R54). -/
theorem test_decode_lmatch_words_high : wordsDecode
    [(56, 0x10fee1, .lmatch48 253 1 1),
     (56, 0x217ee3, .lmatch49 253 2 2),
     (56, 0x71fee5, .lmatch50 253 3 7),
     (56, 0xe27ee7, .lmatch51 253 4 14),
     (56, 0x1f2fee9, .lmatch52 253 5 31),
     (56, 0x3e37eeb, .lmatch53 253 6 62),
     (56, 0x10feed, .lmatch54 253 1 1),
     (56, 0x217eef, .lmatch55 253 2 2),
     (56, 0x71ffef1, .lmatch56 4093 3 7),
     (56, 0xe27fef3, .lmatch57 4093 4 14),
     (56, 0x1f2ffef5, .lmatch58 4093 5 31),
     (56, 0x3e37fef7, .lmatch59 4093 6 62),
     (56, 0x10fffef9, .lmatch60 65533 1 1),
     (56, 0x217ffefb, .lmatch61 65533 2 2),
     (56, 0x71fffefd, .lmatch62 65533 3 7),
     (56, 0xe27ffffffeff, .lmatch63 4294967293 4 14)] = true := by decide

/-- Entry 15 of a ROM that has no sentinel there is a plain SMATCH: `SEL` 0, `PFX4` 15, `DN` 2, `DFRAC` 3 (R90). -/
theorem test_decode_entry_15_without_sentinel :
    decodeBytes ⟨defaultShortRom.set 15 ⟨0, 61⟩, defaultLongRom, 0⟩ .symbol [0x5e, 0x0c] =
      .ok (.smatch15 0 2 3, [false, false, false, false]) := by decide

/-- The commands of R58 in two bits, the reserved codes of R59. -/
theorem test_decode_commands : decodeTableWord 2 1 = some .init ∧ decodeTableWord 2 2 = some .decode ∧
    decodeTableWord 2 0 = none ∧ decodeTableWord 2 3 = none := by decide

/-- CONT of two bytes, little-endian (R33, R57). -/
theorem test_decode_cont : decodeBytes (defaultFormat 2) .cont [0x34, 0x12] = .ok (.cont 0x1234, []) := by
  decide

/-- H1 and H2 of 95_test_vectors. -/
theorem test_decode_headers :
    decodeBytes (defaultFormat 0) .header [0x05, 0x60, 0x18, 0x00, 0x10] = .ok (.hdr 5 0 12 12 (some ⟨0, 16⟩), []) ∧
    decodeBytes (defaultFormat 0) .header [0x09, 0xfa, 0xff, 0x07] =
      .ok (.hdr 9 488 63 63 none, [false, false, false, false, false]) := by decide

/-- H7b: the widest size field; H9: the widest trailing length. -/
theorem test_decode_headers_wide :
    (match decodeBytes (defaultFormat 0) .header [0xff, 0x7b, 0xf3, 0x6a, 0xe2, 0x59, 0xd1, 0x48, 0xe0, 0xff, 0x01] with
      | .ok (i, _) => decide (i = .hdr 63 0x123456789abcdef 63 63 none)
      | .error _ => false) = true ∧
    decodeBytes (defaultFormat 0) .header [0x06, 0x89, 0x14, 0x07, 0x02, 0, 0, 0, 0, 0, 0, 0] =
      .ok (.hdr 6 36 8 5 (some ⟨7, 2⟩), []) := by decide

/-- Y1 to Y5, Y7 and Y8 of 95_test_vectors, Y6's fields. -/
theorem test_decode_vectors : wordsDecode
    [(16, 0x0000, .smatch0 0 0 0), (16, 0x08b0, .smatch8 1 2 1), (24, 0x05887a, .smatch13 3 8 44),
     (24, 0x00067e, .smatchx 15 3 3 0), (24, 0x1623c9, .lmatch36 7 8 44), (8, 0x05, .litrun2 0),
     (16, 0x01a1, .litrun16 3), (24, 0x0017db, .lmatch45 15 1 0)] = true := by decide

/-- The examples' codes are what the encoder writes. -/
theorem test_encode_vectors :
    encode (defaultFormat 0) (.smatch8 1 2 1) = (bytesBits [0xb0, 0x08]).take 13 ∧
    encode (defaultFormat 0) (.smatchx 15 3 3 0) = (bytesBits [0x7e, 0x06, 0x00]).take 17 ∧
    encode (defaultFormat 0) (.lmatch36 7 8 44) = (bytesBits [0xc9, 0x23, 0x16]).take 23 ∧
    encode (defaultFormat 0) (.hdr 5 0 12 12 (some ⟨0, 16⟩)) = bytesBits [0x05, 0x60, 0x18, 0x00, 0x10] := by
  decide

/-! ### The BitReader on the vectors of 95_test_vectors section 2 -/

/-- Memory of section 2. -/
def readerMem : Memory := [(0, 0xb5), (1, 0x3c), (2, 0xf0), (3, 0x0f), (4, 0x5a)]

/-- Environment of section 2 with a given `AVAIL_IN`. -/
def readerEnv (avail : Nat) : Env := ⟨false, all1, 5, avail, .corruptStream, 0, 0, 0⟩

/-- A cursor. -/
def at' (b o : Nat) : Work := ⟨b, o, 0, 0⟩

/-- The value and the cursor of a read. -/
def readsTo (r : Except Status (Nat × Work)) (v b o : Nat) : Bool :=
  match r with
  | .ok (x, w) => x == v && w.inByte == b && w.bitOff == o
  | .error _ => false

/-- A read that raises. -/
def raises {α : Type} (r : Except Status α) (st : Status) : Bool :=
  match r with
  | .ok _ => false
  | .error x => decide (x = st)

/-- B1 to B7. -/
theorem test_take : readsTo (take readerMem (readerEnv 5) 3 (at' 0 0)) 5 0 3 = true ∧
    readsTo (take readerMem (readerEnv 5) 7 (at' 0 3)) 22 1 2 = true ∧
    readsTo (take readerMem (readerEnv 5) 12 (at' 1 3)) 3591 2 7 = true ∧
    readsTo (take readerMem (readerEnv 5) 32 (at' 0 3)) 0x41fe0796 4 3 = true ∧
    readsTo (take readerMem (readerEnv 5) 32 (at' 0 5)) 0xd07f81e5 4 5 = true := by decide

/-- B8. -/
theorem test_take_wide : readsTo (takeWide readerMem (readerEnv 5) 40 (at' 0 0)) 0x5a0ff03cb5 5 0 = true := by
  decide

/-- B9, B10, B11. -/
theorem test_take_at_the_end : raises (take readerMem (readerEnv 5) 32 (at' 1 1)) .corruptStream = true ∧
    readsTo (take readerMem (readerEnv 2) 2 (at' 1 6)) 0 2 0 = true ∧
    raises (take readerMem (readerEnv 2) 3 (at' 1 6)) .needMoreInput = true := by decide

/-- B12 to B14. -/
theorem test_align_and_byte : alignWork (at' 1 6) = at' 2 0 ∧ alignWork (at' 2 0) = at' 2 0 ∧
    (match takeByte readerMem (readerEnv 5) (at' 2 0) with
      | .ok (b, w) => b == 0xf0 && w == at' 3 0
      | .error _ => false) = true := by decide

/-- The accumulator gives what B1 to B4 give. -/
theorem test_accumulator :
    (match accTakes readerMem (readerEnv 5) [3, 7, 1, 12] (accEmpty (at' 0 0)) with
      | .ok vs => vs == [5, 22, 1, 3591]
      | .error _ => false) = true := by decide

/-! ### Small states -/

/-- A session with unconstrained windows, DECODE at the top of a turn; everything available. -/
def linear (m out : Memory) (total dec inByte outCur : Nat) : State :=
  { State.reset with
    phase := .active, status := .ok, activity := .decode, inMem := m, outMem := out
    totalLen := BitVec.ofNat 64 total, decompSize := BitVec.ofNat 64 dec
    inMask := BitVec.ofNat 64 all1, outMask := BitVec.ofNat 64 all1
    invMaskIn := BitVec.ofNat 64 all1, invMaskOut := BitVec.ofNat 64 all1
    nextBnd := BitVec.ofNat 64 all1, reqIn := BitVec.ofNat 64 total
    inByte := BitVec.ofNat 64 inByte, outCur := BitVec.ofNat 64 outCur
    availIn := BitVec.ofNat 64 total, availOut := BitVec.ofNat 64 dec }

/-- A session with an input window of 16 bytes, `LEN_BYTES` 1, the next boundary at 16. -/
def chunked (m out : Memory) (total dec inByte bit outCur : Nat) : State :=
  { linear m out total dec inByte outCur with
    inMask := 15, invMaskIn := 15, lenBytes := 1, chunked := true, dataStart := 5, nextBnd := 16, reqIn := 16
    inBitoff := BitVec.ofNat 3 bit }

/-- LIT abc, then SMATCH of length 2 and distance 1 (the symbols of Y6 and Y1). -/
def linS : State := linear [(0, 0x05), (1, 0x61), (2, 0x62), (3, 0x63)] [] 6 5 0 0

/-- `linS` after its first symbol. -/
def linMid : State := linear [(0, 0x05), (1, 0x61), (2, 0x62), (3, 0x63)] [(0, 0x61), (1, 0x62), (2, 0x63)] 6 5 4 3

/-- LIT abc at position 14, the field (V = 2) at 16: `05 61 | 02 | 62 63`. -/
def litAcross : State := chunked [(0, 0x02), (1, 0x62), (2, 0x63), (14, 0x05), (15, 0x61)] [] 19 3 14 0 0

/-- LIT abc after a field (V = 4) that the cursor stands on. -/
def onField : State := chunked [(0, 0x04), (1, 0x05), (2, 0x61), (3, 0x62), (4, 0x63)] [] 21 3 16 0 0

/-- SMATCH of length 2 and distance 1 from bit 4 of position 15 on, the field (V = 1) at 16. -/
def bitsAcross : State := chunked [(0, 0x01)] [(0, 0x61)] 18 3 15 4 1

/-- H1 of 95_test_vectors past the fit check of INIT. -/
def hdrS : State :=
  { State.reset with
    activity := .init, inMem := [(0, 0x05), (1, 0x60), (2, 0x18), (4, 0x10)], arg1 := 21, arg3 := 5 }

/-- A step's next state, or the state itself. -/
def stepped (s : State) : State :=
  match step s with
  | .next t => t
  | .fault _ => s
  | .refused _ => s

/-- A step answers a next state of which a check holds. -/
def stepGives (s : State) (p : State → Bool) : Bool :=
  match step s with
  | .next t => p t
  | .fault _ => false
  | .refused _ => false

/-! ### Single steps -/

/-- Y6: the literal run writes its bytes and moves both cursors. -/
theorem test_step_literal : stepGives linS (fun t => t.outMem == [(0, 0x61), (1, 0x62), (2, 0x63)] && t.outCur == 3 &&
    t.inByte == 4 && t.inBitoff == 0 && decide (t.activity = .decode)) = true := by decide

/-- Y1: the match repeats the last byte; 10 bits are consumed and no byte of input. -/
theorem test_step_match : stepGives linMid (fun t =>
    t.outMem == [(0, 0x61), (1, 0x62), (2, 0x63), (3, 0x63), (4, 0x63)] && t.outCur == 5 && t.inByte == 5 &&
      t.inBitoff == 2) = true := by decide

/-- E1: a match of length 20 and distance 8 at 12 tiles output bytes 4 to 11 (Y4, program P1). -/
theorem test_step_extended_tiles : stepGives
    (linear [(0, 0x7e), (1, 0x06)] [(4, 0xa4), (5, 0xa5), (6, 0xa6), (7, 0xa7), (8, 0xa8), (9, 0xa9), (10, 0xaa), (11, 0xab)]
      3 32 0 12)
    (fun t => (List.range 20).all (fun i => t.outMem.read (12 + i) == BitVec.ofNat 8 (0xa4 + i % 8)) &&
      t.outCur == 32 && t.inByte == 2 && t.inBitoff == 1) = true := by decide

/-- S14's LMATCH, length 61 and distance 52, here byte-aligned (`SEL` 1, `PFX6` 32, `XTRA` 0, `DN` 5, `DFRAC` 20): byte 60 of the copy is byte 8 of its source. -/
theorem test_step_long_match : stepGives
    (linear [(0, 0x41), (1, 0x14), (2, 0x0a)] [(8, 0x62)] 4 113 0 52)
    (fun t => t.outMem.read 60 == 0x62 && t.outMem.read 112 == 0x62 && t.outMem.read 61 == 0 && t.outCur == 113) = true := by
  decide

/-- S1: distance 1 at output position 0 is corrupt, and the session has failed. -/
theorem test_step_corrupt : stepGives (linear [(0, 0x04)] [] 2 4 0 0) (fun t =>
    decide (t.status = .corruptStream) && decide (t.phase = .failed) && decide (t.activity = .idle) && t.inByte == 0) =
      true := by decide

/-- S9: a symbol at `TOTAL_LEN` is corrupt. -/
theorem test_step_at_total : stepGives (linear [] [] 8 20 8 4) (fun t => decide (t.status = .corruptStream)) = true := by
  decide

/-- A literal run that crosses the boundary: the field is skipped and its V becomes `REQ_IN` (R110, R111). -/
theorem test_step_literal_across : stepGives litAcross (fun t =>
    t.outMem == [(0, 0x61), (1, 0x62), (2, 0x63)] && t.inByte == 19 && t.nextBnd == 32 && t.reqIn == 19) = true := by
  decide

/-- CONT: the working copy moves over the field, no register does (R110). -/
theorem test_step_cont : stepGives onField (fun t =>
    t.work == ⟨17, 0, 32, 21⟩ && decide (t.activity = .symbol) && t.inByte == 16 && t.nextBnd == 16) = true := by
  decide

/-- CONT with V one too large is corrupt (check (d)). -/
theorem test_step_cont_too_far : stepGives { onField with inMem := [(0, 0x05), (1, 0x05)] } (fun t =>
    decide (t.status = .corruptStream) && t.inByte == 16 && t.reqIn == 16) = true := by decide

/-- H1: the session's registers. -/
theorem test_step_header : stepGives hdrS (fun t => decide (t.status = .ok) && t.ret0 == 21 && t.decompSize == 32 &&
    t.inMask == 0xfff && t.outMask == 0xfff && t.lenBytes == 1 && t.chunked && t.dataStart == 5 && t.nextBnd == 4096) =
      true := by decide

/-- H4: a header size too small is `HeaderTruncated`. -/
theorem test_step_header_truncated : stepGives { hdrS with arg3 := 2 } (fun t =>
    decide (t.status = .headerTruncated) && t.ret0 == 0 && decide (t.phase = .noSession)) = true := by decide

/-- H3 and the first step of H1. -/
theorem test_step_init : stepGives { State.reset with cmd := 1, arg1 := 4, arg3 := 5 } (fun t =>
      decide (t.status = .headerTruncated) && decide (t.activity = .idle)) = true ∧
    stepGives { State.reset with cmd := 1, arg1 := 21, arg3 := 5 } (fun t => decide (t.activity = .init)) = true := by
  decide

/-- S16: DECODE after reset. -/
theorem test_step_decode_no_session : stepGives { State.reset with cmd := 2, arg0 := 1, arg1 := 1 } (fun t =>
    decide (t = { State.reset with arg0 := 1, arg1 := 1, status := .noSession })) = true := by decide

/-- The arguments are clamped to the frame and to the declared size (R77). -/
theorem test_step_decode_clamps : stepGives { linS with activity := .idle, cmd := 2, arg0 := 99, arg1 := 4 } (fun t =>
    t.availIn == 6 && t.availOut == 4 && decide (t.activity = .decode)) = true := by decide

/-- `withFetchWord`: the word of SMATCHX runs as the first instruction: no byte has been produced, so it is corrupt. -/
theorem test_fetch_word_runs : stepGives (State.reset.withFetchWord 8 0x1e) (fun t =>
    decide (t.status = .corruptStream)) = true := by decide

/-! ### States that meet the invariant -/

/-- The parts of `SessionInv`, with k the input window's code. -/
abbrev SessionParts (k : Nat) (s : State) : Prop :=
  s.totalLen.toNat < Config.totalLenBound ∧ s.hdrOff.toNat ≤ s.dataStart.toNat ∧ s.dataStart.toNat ≤ s.inByte.toNat ∧
    1 ≤ s.decompSize.toNat ∧ s.outMask.toNat = all1 ∧ s.invMaskIn = s.inMask ∧ s.invMaskOut = s.outMask ∧
    s.inByte.toNat ≤ s.totalLen.toNat ∧ (s.inBitoff ≠ 0 → s.inByte.toNat < s.totalLen.toNat) ∧
    s.outCur.toNat ≤ s.decompSize.toNat ∧ s.dataStart.toNat ≤ s.reqIn.toNat ∧ s.reqIn.toNat ≤ s.totalLen.toNat ∧
    (s.chunked = true → (4 ≤ k ∧ k ≤ 62 ∧ s.inMask.toNat = 2 ^ k - 1) ∧ 1 ≤ s.lenBytes.toNat ∧ s.lenBytes.toNat ≤ 8 ∧
      s.inByte.toNat ≤ s.nextBnd.toNat ∧ (s.inByte = s.nextBnd → s.inBitoff = 0) ∧
      s.inMask.toNat + 1 ∣ s.nextBnd.toNat ∧ s.dataStart.toNat < s.nextBnd.toNat ∧
      s.nextBnd.toNat ≤ s.inByte.toNat + s.inMask.toNat + 1 ∧ s.reqIn.toNat ≤ s.nextBnd.toNat) ∧
    (s.chunked = false → s.inMask.toNat = all1 ∧ s.lenBytes = 0 ∧ s.nextBnd.toNat = all1 ∧ s.reqIn = s.totalLen)

theorem sessionInv_of_parts {k : Nat} {s : State} (h : SessionParts k s) (_ : s.phase ≠ .noSession) : SessionInv s := by
  obtain ⟨h1, h2, h3, h4, h5, h6, h7, h8, h9, h10, h11, h12, hc, hl⟩ := h
  refine ⟨h1, h2, h3, h4, .inl h5, h6, h7, h8, h9, h10, h11, h12, ?_⟩
  cases hk : s.chunked with
  | true =>
    obtain ⟨⟨a, b, c⟩, d, e, f, g, i, j, l, m⟩ := hc hk
    exact ⟨⟨k, a, b, c⟩, d, e, f, g, i, j, l, m⟩
  | false =>
    obtain ⟨a, b, c, d⟩ := hl hk
    exact ⟨a, b, c, d⟩

/-- The parts of `Inv` that every activity has. -/
abbrev CommonParts (s : State) : Prop :=
  s.inMem.wf ∧ s.outMem.wf ∧ s.format.romWf = true ∧ s.nbits = 0 ∧ s.fsm = .readSymbol

theorem inv_of_parts {s : State} (h : CommonParts s) (hs : s.phase ≠ .noSession → SessionInv s) (ha : ActivityInv s) :
    Inv s :=
  ⟨h.1, h.2.1, h.2.2.1, h.2.2.2.1, h.2.2.2.2, hs, ha⟩

theorem inv_idle {s : State} (h : CommonParts s) (hs : s.phase ≠ .noSession → SessionInv s)
    (ha : s.activity = .idle ∧ s.work = Work.none ∧ s.availIn = 0 ∧ s.availOut = 0) : Inv s :=
  inv_of_parts h hs (by rw [ActivityInv, ha.1]; exact ⟨ha.2.1, ha.2.2.1, ha.2.2.2⟩)

theorem inv_init {s : State} (h : CommonParts s) (hs : s.phase ≠ .noSession → SessionInv s)
    (ha : s.activity = .init ∧ s.cmd = 0 ∧ s.phase = .noSession ∧ s.arg1.toNat < Config.totalLenBound ∧
      headerEnd s ≤ s.arg1.toNat ∧ s.work = headerWork s ∧ s.availIn = 0 ∧ s.availOut = 0) : Inv s :=
  inv_of_parts h hs (by
    obtain ⟨ha, hc, h1, h2, h3, h4, h5, h6⟩ := ha
    rw [ActivityInv, ha]; exact ⟨hc, h1, h2, h3, h4, h5, h6⟩)

/-- The parts of `LatchInv`. -/
abbrev LatchParts (s : State) : Prop :=
  s.cmd = 0 ∧ s.phase = .active ∧ s.availIn.toNat ≤ s.totalLen.toNat ∧ s.availOut.toNat ≤ s.decompSize.toNat

theorem inv_decode {s : State} (h : CommonParts s) (hs : s.phase ≠ .noSession → SessionInv s)
    (ha : s.activity = .decode ∧ LatchParts s ∧ s.work = Work.none) : Inv s :=
  inv_of_parts h hs (by
    obtain ⟨ha, ⟨hc, h1, h2, h3⟩, hw⟩ := ha
    rw [ActivityInv, ha]; exact ⟨hc, ⟨h1, h2, h3⟩, hw⟩)

theorem inv_symbol {s : State} (h : CommonParts s) (hs : s.phase ≠ .noSession → SessionInv s)
    (ha : s.activity = .symbol ∧ LatchParts s ∧ s.chunked = true ∧ s.inByte = s.nextBnd ∧
      loopTest s = none ∧ s.nextBnd.toNat + s.lenBytes.toNat ≤ s.availIn.toNat ∧
      s.work.inByte = s.nextBnd.toNat + s.lenBytes.toNat ∧ s.work.bitOff = 0 ∧
      s.work.nextBnd = s.nextBnd.toNat + s.inMask.toNat + 1 ∧ s.work.inByte ≤ s.work.reqIn ∧
      s.work.reqIn ≤ min s.work.nextBnd s.totalLen.toNat) : Inv s :=
  inv_of_parts h hs (by
    obtain ⟨ha, ⟨hc, h1, h2, h3⟩, a, b, c, d, e, f, g, i, j⟩ := ha
    rw [ActivityInv, ha]; exact ⟨hc, ⟨h1, h2, h3⟩, a, b, c, d, e, f, g, i, j⟩)

/-- `MatchFits` by its parts. -/
theorem matchFits_of {s : State} {n d : Nat}
    (h : s.outCur.toNat + n ≤ s.decompSize.toNat ∧ (s.outMask.toNat ≠ all1 → n ≤ s.outMask.toNat + 1) ∧
      d ≤ s.outCur.toNat ∧ (s.outMask.toNat ≠ all1 → d ≤ s.outMask.toNat + 1) ∧
      s.outCur.toNat + n ≤ s.availOut.toNat) : MatchFits s n d := ⟨h.1, h.2.1, h.2.2.1, h.2.2.2.1, h.2.2.2.2⟩

/-- `LiteralFits` by its parts. -/
theorem literalFits_of {s : State} {n : Nat}
    (h : s.outCur.toNat + n ≤ s.decompSize.toNat ∧ (s.outMask.toNat ≠ all1 → n ≤ s.outMask.toNat + 1) ∧
      s.outCur.toNat + n ≤ s.availOut.toNat) : LiteralFits s n := ⟨h.1, h.2.1, h.2.2⟩

/-- `linS` with its output complete. -/
def linEnd : State := linear [(0, 0x05), (1, 0x61), (2, 0x62), (3, 0x63)] [(0, 0x61), (1, 0x62), (2, 0x63)] 6 3 4 3

/-- `onField` after CONT. -/
def crossedS : State := { onField with work := ⟨17, 0, 32, 21⟩, activity := .symbol }

/-- The session of `linS` at a command boundary. -/
def idleS : State := { linS with activity := .idle, availIn := 0, availOut := 0 }

/-- The session of `onField` at a command boundary. -/
def idleField : State := { onField with activity := .idle, availIn := 0, availOut := 0 }

/-- INIT issued for H1, after reset. -/
def initS : State := { State.reset with cmd := 1, arg1 := 21, arg3 := 5, inMem := hdrS.inMem }

/-- INIT issued with a header that does not fit, in a session. -/
def initAgain : State := { idleS with cmd := 1, arg1 := 4, arg3 := 5 }

/-- A header size too small (H4). -/
def hdrShort : State := { hdrS with arg3 := 2 }

/-- S1 of 95_test_vectors at its symbol. -/
def corruptS : State := linear [(0, 0x04)] [] 2 4 0 0

theorem linS_inv : Inv linS :=
  inv_decode (by decide) (sessionInv_of_parts (k := 0) (by decide)) (by decide)

theorem linMid_inv : Inv linMid :=
  inv_decode (by decide) (sessionInv_of_parts (k := 0) (by decide)) (by decide)

theorem linEnd_inv : Inv linEnd :=
  inv_decode (by decide) (sessionInv_of_parts (k := 0) (by decide)) (by decide)

theorem corruptS_inv : Inv corruptS :=
  inv_decode (by decide) (sessionInv_of_parts (k := 0) (by decide)) (by decide)

theorem litAcross_inv : Inv litAcross :=
  inv_decode (by decide) (sessionInv_of_parts (k := 4) (by decide)) (by decide)

theorem onField_inv : Inv onField :=
  inv_decode (by decide) (sessionInv_of_parts (k := 4) (by decide)) (by decide)

theorem bitsAcross_inv : Inv bitsAcross :=
  inv_decode (by decide) (sessionInv_of_parts (k := 4) (by decide)) (by decide)

theorem crossedS_inv : Inv crossedS :=
  inv_symbol (by decide) (sessionInv_of_parts (k := 4) (by decide)) (by decide)

theorem idleS_inv : Inv idleS :=
  inv_idle (by decide) (sessionInv_of_parts (k := 0) (by decide)) (by decide)

theorem idleField_inv : Inv idleField :=
  inv_idle (by decide) (sessionInv_of_parts (k := 4) (by decide)) (by decide)

theorem initS_inv : Inv initS :=
  inv_idle (by decide) (absurd rfl) (by decide)

theorem initAgain_inv : Inv initAgain :=
  inv_idle (by decide) (sessionInv_of_parts (k := 0) (by decide)) (by decide)

theorem hdrS_inv : Inv hdrS :=
  inv_init (by decide) (absurd rfl) (by decide)

theorem hdrShort_inv : Inv hdrShort :=
  inv_init (by decide) (absurd rfl) (by decide)

/-- A step that answers a next state answers `stepped`. -/
theorem step_eq_stepped {s : State} (h : stepGives s (fun _ => true) = true) : step s = .next (stepped s) := by
  unfold stepGives at h; unfold stepped
  cases hs : step s <;> simp [hs] at h ⊢

/-- The state that k steps reach. -/
def ran (k : Nat) (s : State) : State :=
  match Host.Core.run Sys2Proof.core k s with
  | .next t => t
  | .fault _ => s
  | .refused _ => s

/-- k steps reach a command boundary. -/
def runs (k : Nat) (s : State) : Bool :=
  match Host.Core.run Sys2Proof.core k s with
  | .next t => !State.busy t
  | .fault _ => false
  | .refused _ => false

/-- A run that `runs` accepts is a command. -/
theorem commandRuns_of_runs {k : Nat} {s : State} (h : runs k s = true) : CommandRuns s (ran k s) := by
  refine ⟨k, ?_⟩
  unfold runs at h; unfold ran
  cases hr : Host.Core.run Sys2Proof.core k s <;> simp [hr] at h ⊢
  exact h

/-! ### A case for each statement with hypotheses -/

/-- Each format at its widest operands. -/
theorem witness_DecodeOfEncode :
    (Instr.smatch14 15 31 0x7fffffff).wf (defaultFormat 0) = true ∧
    (Instr.smatchx 15 15 31 0x7fffffff).wf (defaultFormat 0) = true ∧ (Instr.litrun31 0xffff).wf (defaultFormat 0) = true ∧
    (Instr.lmatch63 0xffffffff 31 0x7fffffff).wf (defaultFormat 0) = true ∧
    (Instr.cont 0xffffffffffffffff).wf (defaultFormat 8) = true ∧
    (Instr.hdr 63 0x7fffffffffffffff 62 63 (some ⟨7, 0xffffffffffffffff⟩)).wf (defaultFormat 0) = true ∧
    (Instr.hdr 0 0 63 0 none).wf (defaultFormat 0) = true ∧ Instr.init.wf (defaultFormat 0) = true := by decide

/-- Y2 of 95_test_vectors. -/
theorem witness_SymbolHasOneCode :
    (defaultFormat 0).romWf = true ∧
    decodeBits (defaultFormat 0) .symbol (bytesBits [0xb0, 0x08]) = .ok (.smatch8 1 2 1, [false, false, false]) := by decide

/-- The widest V. -/
theorem witness_CodeLengthBounds :
    (8 : BitVec 4).toNat ≤ 8 ∧ (Instr.view (.cont 0xffffffffffffffff)).wf (defaultFormat 8) = true := by decide

/-- The last 32 bits of the memory, to the limit. -/
theorem witness_TakeClosedForm :
    (at' 1 0).bitOff < 8 ∧ bitPos (at' 1 0) + 32 ≤ 8 * readLimit (readerEnv 5) (at' 1 0) ∧
    bitPos (at' 1 0) + 32 = 8 * readLimit (readerEnv 5) (at' 1 0) := by decide

/-- A field that succeeds. -/
theorem witness_MoreInputSameRead_fields :
    (readerEnv 2).avail ≤ 5 ∧
    ∀ st, runParse readerMem (readerEnv 2) (.take 16 .done : Parse Nat) (at' 0 0) = .error st → st ≠ .needMoreInput := by
  refine ⟨by decide, fun st h => ?_⟩
  have : raises (runParse readerMem (readerEnv 2) (.take 16 .done : Parse Nat) (at' 0 0)) .needMoreInput = false := by
    decide
  rintro rfl
  simp [raises, h] at this

/-- Bytes that succeed. -/
theorem witness_MoreInputSameRead_bytes :
    (readerEnv 2).avail ≤ 5 ∧
    ∀ st, takeBytes readerMem (readerEnv 2) 2 (at' 0 0) = .error st → st ≠ .needMoreInput := by
  refine ⟨by decide, fun st h => ?_⟩
  have : raises (takeBytes readerMem (readerEnv 2) 2 (at' 0 0)) .needMoreInput = false := by decide
  rintro rfl
  simp [raises, h] at this

/-- The widest field. -/
theorem witness_TakeWideIsTake :
    (63 : Nat) ≤ 63 := by decide

/-- On the boundary of `litAcross`. -/
theorem witness_TakeByteIsTake :
    (⟨16, 0, 16, 16⟩ : Work).bitOff = 0 ∧
    ((decodeEnv litAcross).chunked = true → (decodeEnv litAcross).lenBytes < (decodeEnv litAcross).stride) := by decide

/-- Offset 4 with no further byte, offset 5 with none and with one. -/
theorem witness_ExtendedRunAlone :
    ((readerEnv 1).chunked = false ∧ (at' 0 4).bitOff < 8 ∧ byteChecks (readerEnv 1) 0 = none ∧ (at' 0 4).bitOff ≤ 4) ∧
    (5 ≤ (at' 0 5).bitOff ∧ byteChecks (readerEnv 1) 0 = none ∧ byteChecks (readerEnv 1) 1 = some .needMoreInput) ∧
    (5 ≤ (at' 0 5).bitOff ∧ byteChecks (readerEnv 2) 0 = none ∧ byteChecks (readerEnv 2) 1 = none) := by decide

/-- No bits; DN 0; DN 21 without and with its DFRAC. -/
theorem witness_ReadDistanceValue :
    take readerMem (readerEnv 5) 5 (at' 5 0) = .error .corruptStream ∧
    take [] (readerEnv 5) 5 (at' 0 0) = .ok (0, at' 0 5) ∧
    (take readerMem (readerEnv 1) 5 (at' 0 0) = .ok (21, at' 0 5) ∧
      take readerMem (readerEnv 1) 21 (at' 0 5) = .error .needMoreInput) ∧
    (take readerMem (readerEnv 5) 5 (at' 0 0) = .ok (21, at' 0 5) ∧
      take readerMem (readerEnv 5) 21 (at' 0 5) = .ok (0x1f81e5, at' 3 2)) := by decide

/-- The widest field, and the field of `litAcross` at the largest legal V. -/
theorem witness_CrossBoundaryRule :
    (8 : Nat) ≤ 8 ∧ (decodeEnv litAcross).lenBytes ≤ 8 ∧
    crossBoundary litAcross.inMem (decodeEnv litAcross) ⟨16, 0, 16, 16⟩ = .ok ⟨17, 0, 32, 19⟩ := by decide

/-- The bytes of `litAcross`: one before the boundary, two after the field, up to the limit. -/
theorem witness_LiteralBytesAcross :
    (decodeEnv litAcross).chunked = true ∧ (⟨15, 0, 16, 16⟩ : Work).inByte + 1 = (⟨15, 0, 16, 16⟩ : Work).nextBnd ∧ 0 < 2 ∧
    crossBoundary litAcross.inMem (decodeEnv litAcross) ⟨15, 0, 16, 16⟩ = .ok ⟨17, 0, 32, 19⟩ ∧
    (⟨17, 0, 32, 19⟩ : Work).inByte + 2 ≤ readLimit (decodeEnv litAcross) ⟨17, 0, 32, 19⟩ := by decide

/-- `litAcross`, with fields that cross and run out. -/
theorem witness_AccumulatorAgrees :
    (copyWork litAcross).bitOff < 8 ∧
    ((decodeEnv litAcross).chunked = true → (copyWork litAcross).inByte ≤ (copyWork litAcross).nextBnd ∧
      ((copyWork litAcross).inByte = (copyWork litAcross).nextBnd → (copyWork litAcross).bitOff = 0) ∧
      (decodeEnv litAcross).lenBytes < (decodeEnv litAcross).stride) ∧
    (decodeEnv litAcross).avail ≤ (decodeEnv litAcross).total ∧
    ((decodeEnv litAcross).inMask ≠ all1 →
      (decodeEnv litAcross).avail ≤ (decodeEnv litAcross).base + (decodeEnv litAcross).inMask + 1) ∧
    ∀ n ∈ [1, 6, 32, 5], 1 ≤ n ∧ n ≤ Config.takeMax := by decide

/-- The literal run of `linS`; the one after CONT. -/
theorem witness_StepRunsSymbol :
    (linS.activity = .decode ∧ loopTest linS = none ∧
      decodeBits linS.format .symbol (bitsAhead linS.inMem (decodeEnv linS) (copyWork linS)) =
        .ok (.litrun2 0, (bitsAhead linS.inMem (decodeEnv linS) (copyWork linS)).drop 7)) ∧
    (crossedS.activity = .symbol ∧ crossedS.work.bitOff < 8 ∧
      decodeBits crossedS.format .symbol (bitsAhead crossedS.inMem (decodeEnv crossedS) crossedS.work) =
        .ok (.litrun2 0, (bitsAhead crossedS.inMem (decodeEnv crossedS) crossedS.work).drop 7)) := by decide

/-- The match of `bitsAcross`: 4 bits before the boundary, 6 after the field. -/
theorem witness_StepRunsSymbolAcross :
    bitsAcross.activity = .decode ∧ loopTest bitsAcross = none ∧ bitsAcross.chunked = true ∧
    bitsAcross.inByte.toNat < bitsAcross.nextBnd.toNat ∧
    crossBoundary bitsAcross.inMem (decodeEnv bitsAcross)
      { copyWork bitsAcross with inByte := bitsAcross.nextBnd.toNat, bitOff := 0 } = .ok ⟨17, 0, 32, 18⟩ ∧
    decodeBits bitsAcross.format .symbol
      (streamBits bitsAcross.inMem bitsAcross.inMask.toNat (bitPos (copyWork bitsAcross))
        (8 * bitsAcross.nextBnd.toNat - bitPos (copyWork bitsAcross)) ++
        bitsAhead bitsAcross.inMem (decodeEnv bitsAcross) ⟨17, 0, 32, 18⟩) = .ok (.smatch0 0 0 0, [false, false]) ∧
    [false, false].length < (bitsAhead bitsAcross.inMem (decodeEnv bitsAcross) ⟨17, 0, 32, 18⟩).length := by decide

/-- The field of `onField`, missing and present. -/
theorem witness_StepRunsCont :
    (({ onField with availIn := 16 } : State).activity = .decode ∧ loopTest { onField with availIn := 16 } = none ∧
      onField.chunked = true ∧ onField.inByte = onField.nextBnd ∧
      contChecks (decodeEnv { onField with availIn := 16 }) (copyWork onField) = some .needMoreInput) ∧
    (onField.activity = .decode ∧ loopTest onField = none ∧
      contChecks (decodeEnv onField) (copyWork onField) = none ∧
      decodeBits onField.format .cont
        (streamBits onField.inMem onField.inMask.toNat (8 * onField.nextBnd.toNat) (8 * onField.lenBytes.toNat)) =
          .ok (.cont 4, [])) := by decide

/-- H1, and H4 of 95_test_vectors. -/
theorem witness_StepRunsHeader :
    (hdrS.activity = .init ∧ hdrS.work.bitOff = 0 ∧
      decodeBits hdrS.format .header (bitsAhead hdrS.inMem (headerEnv hdrS) hdrS.work) =
        .ok (.hdr 5 0 12 12 (some ⟨0, 16⟩), [])) ∧
    (hdrShort.activity = .init ∧ hdrShort.work.bitOff = 0 ∧
      decodeBits hdrShort.format .header (bitsAhead hdrShort.inMem (headerEnv hdrShort) hdrShort.work) =
        .error .outOfBits) := by decide

/-- Each value of the latch. -/
theorem witness_StepRunsCommand :
    initS.activity = .idle ∧ initS.cmd = 1 ∧ ({ idleS with cmd := 2 } : State).activity = .idle ∧
    ({ idleS with cmd := 2 } : State).cmd = 2 ∧ ({ idleS with cmd := 3 } : State).cmd = 3 ∧ idleS.cmd = 0 := by decide

/-- `linear` at the end of a frame of 8 bytes (S9). -/
def endS : State := linear [] [] 8 20 8 4

/-- `litAcross` with nothing available from its cursor on. -/
def shortS : State := { litAcross with availIn := 14, reqIn := 14 }

/-- LMATCH.63 with 8 of its 10 bytes before the second boundary, after CONT over a field of 8 bytes. -/
def longS : State :=
  { onField with
    lenBytes := 8, totalLen := 40, availIn := 32, work := ⟨24, 0, 32, 32⟩, activity := .symbol,
    inMem := [(0, 0x08), (8, 0xff), (9, 0xff), (10, 0xff), (11, 0xff), (12, 0xff), (13, 0xff), (14, 0xff), (15, 0xff)] }

/-- The bits of a symbol read from `w` end before the boundary, and the byte there raises `st`. -/
def endsBefore (s : State) (w : Work) (st : Status) : Prop :=
  (s.chunked = true → w.inByte ≠ w.nextBnd ∧ readLimit (decodeEnv s) w < w.nextBnd) ∧
    decodeBits s.format .symbol (bitsAhead s.inMem (decodeEnv s) w) = .error .outOfBits ∧
    byteChecks (decodeEnv s) (max w.inByte (readLimit (decodeEnv s) w)) = some st

/-- They end at the boundary, and the crossing raises `st`. -/
def endsAt (s : State) (w : Work) (st : Status) : Prop :=
  s.chunked = true ∧ w.inByte < w.nextBnd ∧ readLimit (decodeEnv s) w = w.nextBnd ∧
    decodeBits s.format .symbol (bitsAhead s.inMem (decodeEnv s) w) = .error .outOfBits ∧
    crossBoundary s.inMem (decodeEnv s) { w with inByte := w.nextBnd, bitOff := 0 } = .error st

/-- At the end of the frame, before it in a chunk, and after CONT. -/
theorem witness_SymbolBitsRunOut_before :
    (SymbolReadAt endS (copyWork endS) ∧ endsBefore endS (copyWork endS) .corruptStream) ∧
    (SymbolReadAt shortS (copyWork shortS) ∧ endsBefore shortS (copyWork shortS) .needMoreInput) ∧
    (SymbolReadAt { crossedS with availIn := 17 } crossedS.work ∧
      endsBefore { crossedS with availIn := 17 } crossedS.work .needMoreInput) := 
  ⟨⟨.inl ⟨rfl, by decide, rfl⟩, by decide, by decide, by decide⟩, ⟨.inl ⟨rfl, by decide, rfl⟩, by decide, by decide, by decide⟩, .inr ⟨rfl, rfl, by decide⟩, by decide, by decide, by decide⟩

/-- At the boundary: the field missing, its V too large, and the window of the step full after CONT. -/
theorem witness_SymbolBitsRunOut_at :
    (SymbolReadAt { bitsAcross with availIn := 16 } (copyWork bitsAcross) ∧
      endsAt { bitsAcross with availIn := 16 } (copyWork bitsAcross) .needMoreInput) ∧
    (SymbolReadAt { bitsAcross with inMem := [(0, 0xff)] } (copyWork bitsAcross) ∧
      endsAt { bitsAcross with inMem := [(0, 0xff)] } (copyWork bitsAcross) .corruptStream) ∧
    (SymbolReadAt longS longS.work ∧ endsAt longS longS.work .corruptStream) := 
  ⟨⟨.inl ⟨rfl, by decide, rfl⟩, by decide, by decide, by decide, by decide, by decide⟩, ⟨.inl ⟨rfl, by decide, rfl⟩, by decide, by decide, by decide, by decide, by decide⟩,
   .inr ⟨rfl, rfl, by decide⟩, by decide, by decide, by decide, by decide, by decide⟩

/-- `bitsAcross` with its field available and no byte behind it. -/
theorem witness_SymbolBitsRunOut_behind :
    SymbolReadAt { bitsAcross with availIn := 17 } (copyWork bitsAcross) ∧ bitsAcross.chunked = true ∧
    (copyWork bitsAcross).inByte < (copyWork bitsAcross).nextBnd ∧
    crossBoundary bitsAcross.inMem (decodeEnv { bitsAcross with availIn := 17 })
      { copyWork bitsAcross with inByte := (copyWork bitsAcross).nextBnd, bitOff := 0 } = .ok ⟨17, 0, 32, 18⟩ ∧
    readLimit (decodeEnv { bitsAcross with availIn := 17 }) ⟨17, 0, 32, 18⟩ < 32 ∧
    decodeBits bitsAcross.format .symbol
      (streamBits bitsAcross.inMem bitsAcross.inMask.toNat (bitPos (copyWork bitsAcross))
        (8 * (copyWork bitsAcross).nextBnd - bitPos (copyWork bitsAcross)) ++
        bitsAhead bitsAcross.inMem (decodeEnv { bitsAcross with availIn := 17 }) ⟨17, 0, 32, 18⟩) = .error .outOfBits ∧
    byteChecks (decodeEnv { bitsAcross with availIn := 17 })
      (max 17 (readLimit (decodeEnv { bitsAcross with availIn := 17 }) ⟨17, 0, 32, 18⟩)) = some .needMoreInput := 
  ⟨.inl ⟨rfl, by decide, rfl⟩, by decide, by decide, by decide, by decide, by decide, by decide⟩

/-- An output window of 2 bytes at output position 3. -/
def ringOut : State := { linMid with outMask := 1, invMaskOut := 1, outMem := [(0, 0x63), (1, 0x62)] }

/-- Length 2 to the last byte of the output; the same in a window of 2 bytes. -/
theorem witness_ShortMatchCopies :
    ((0, Instr.smatch0) ∈ shortMatchForms ∧ MatchFits linMid 2 1 ∧ IsWindowMask linMid.outMask.toNat ∧ linMid.outMem.wf) ∧
    (MatchFits ringOut 2 2 ∧ IsWindowMask ringOut.outMask.toNat ∧ ringOut.outMem.wf ∧
      codedLength (ringOut.format.short 0) 0 = 2 ∧ distanceOf 1 0 = 2) := 
  ⟨⟨by simp [shortMatchForms], matchFits_of (by decide), .inl (by decide), by decide⟩,
   matchFits_of (by decide), .inr ⟨1, by decide, by decide⟩, by decide, by decide, by decide⟩

/-- E1: length 20, distance 8 at 12. -/
theorem witness_ExtendedMatchCopies :
    MatchFits (linear [] [] 3 32 0 12) (17 + (3 : BitVec 4).toNat) (distanceOf 3 0) ∧
    IsWindowMask (linear [] [] 3 32 0 12).outMask.toNat ∧ (linear [] [] 3 32 0 12).outMem.wf := ⟨matchFits_of (by decide), .inl (by decide), by decide⟩

/-- Length 61, distance 52 at 52 (S14). -/
theorem witness_LongMatchCopies :
    (32, Instr.lmatch32) ∈ longMatchForms ∧
    MatchFits (linear [] [] 4 113 0 52) (codedLength ((linear [] [] 4 113 0 52).format.long 32) (0 : BitVec 32).toNat)
      (distanceOf 5 20) ∧
    IsWindowMask (linear [] [] 4 113 0 52).outMask.toNat ∧ (linear [] [] 4 113 0 52).outMem.wf := 
  ⟨by simp [longMatchForms], matchFits_of (by decide), .inl (by decide), by decide⟩

/-- Three bytes up to the end of the frame. -/
theorem witness_LiteralRunStores :
    (2, Instr.litrun2) ∈ literalForms ∧
    LiteralFits { linear [] [] 4 3 0 0 with work := ⟨0, 7, 0, 0⟩ }
      (codedLength ((linear [] [] 4 3 0 0).format.long 2) (0 : BitVec 32).toNat) ∧
    IsWindowMask (linear [] [] 4 3 0 0).outMask.toNat ∧ (linear [] [] 4 3 0 0).outMem.wf ∧
    (alignWork ⟨0, 7, 0, 0⟩).inByte + codedLength ((linear [] [] 4 3 0 0).format.long 2) (0 : BitVec 32).toNat ≤
      readLimit (decodeEnv (linear [] [] 4 3 0 0)) (alignWork ⟨0, 7, 0, 0⟩) := 
  ⟨by simp [literalForms], literalFits_of (by decide), .inl (by decide), by decide, by decide⟩

/-- The run of `litAcross`. -/
theorem witness_LiteralRunStoresStream :
    (2, Instr.litrun2) ∈ literalForms ∧
    LiteralFits { litAcross with work := ⟨14, 7, 16, 16⟩ } (codedLength (litAcross.format.long 2) (0 : BitVec 32).toNat) ∧
    IsWindowMask litAcross.outMask.toNat ∧ litAcross.outMem.wf ∧
    takeBytes litAcross.inMem (decodeEnv litAcross) (codedLength (litAcross.format.long 2) (0 : BitVec 32).toNat)
      (alignWork ⟨14, 7, 16, 16⟩) = .ok ([0x61, 0x62, 0x63], ⟨19, 0, 32, 19⟩) := 
  ⟨by simp [literalForms], literalFits_of (by decide), .inl (by decide), by decide, by decide⟩

/-- One byte past each bound: size, length against the window, distance against the output and the window, room. -/
theorem witness_BoundsChecks_match :
    linMid.activity ≠ .init ∧
    (matchOperands linMid.format (.smatch1 0 0 0) = some (3, 1) ∧ linMid.outCur.toNat + 3 > linMid.decompSize.toNat) ∧
    (matchOperands ringOut.format (.smatch1 0 0 0) = some (3, 1) ∧ ringOut.outMask.toNat ≠ all1 ∧
      3 > ringOut.outMask.toNat + 1) ∧
    (matchOperands linMid.format (.smatch0 0 2 0) = some (2, 4) ∧ 4 > linMid.outCur.toNat) ∧
    (matchOperands ringOut.format (.smatch0 0 1 1) = some (2, 3) ∧ ringOut.outMask.toNat ≠ all1 ∧
      3 > ringOut.outMask.toNat + 1) ∧
    (linMid.outCur.toNat + 2 ≤ linMid.decompSize.toNat ∧ linMid.outMask.toNat = all1 ∧ 3 ≤ linMid.outCur.toNat ∧
      matchOperands linMid.format (.smatch0 0 1 1) = some (2, 3) ∧
      linMid.outCur.toNat + 2 > ({ linMid with availOut := 4 } : State).availOut.toNat) := by decide

/-- The same for a run. -/
theorem witness_BoundsChecks_literal :
    (literalOperand linMid.format (.litrun2 0) = some 3 ∧ linMid.outCur.toNat + 3 > linMid.decompSize.toNat) ∧
    (literalOperand ringOut.format (.litrun2 0) = some 3 ∧ ringOut.outMask.toNat ≠ all1 ∧
      3 > ringOut.outMask.toNat + 1) ∧
    (literalOperand linMid.format (.litrun1 0) = some 2 ∧ linMid.outCur.toNat + 2 ≤ linMid.decompSize.toNat ∧
      linMid.outMask.toNat = all1 ∧
      linMid.outCur.toNat + 2 > ({ linMid with availOut := 4 } : State).availOut.toNat) := by decide

/-- One byte missing at the end of the frame, and at `AVAIL_IN` inside it. -/
theorem witness_LiteralBytesMissing :
    literalOperand linS.format (.litrun2 0) = some 3 ∧ linS.activity ≠ .init ∧
    (LiteralFits { linear [] [] 3 3 0 0 with work := ⟨0, 7, 0, 0⟩ } 3 ∧
      takeBytes [] (decodeEnv (linear [] [] 3 3 0 0)) 3 (alignWork ⟨0, 7, 0, 0⟩) = .error .corruptStream ∧
      (alignWork ⟨0, 7, 0, 0⟩).inByte + 3 > (linear [] [] 3 3 0 0).availIn.toNat) ∧
    (LiteralFits { linear [] [] 9 3 0 0 with work := ⟨0, 7, 0, 0⟩, availIn := 3 } 3 ∧
      (linear [] [] 9 3 0 0).chunked = false ∧ (linear [] [] 9 3 0 0).inMask.toNat = all1 ∧
      (alignWork ⟨0, 7, 0, 0⟩).inByte ≤ 3 ∧ (alignWork ⟨0, 7, 0, 0⟩).inByte + 3 > 3 ∧
      (3 : Word) ≠ (linear [] [] 9 3 0 0).totalLen) := 
  ⟨by decide, by decide, ⟨literalFits_of (by decide), by decide, by decide⟩, literalFits_of (by decide), by decide, by decide, by decide, by decide, by decide⟩

/-- The largest legal V and the next. -/
theorem witness_ContMoves :
    (16 + onField.lenBytes.toNat + (4 : Word).toNat ≤ min (16 + (onField.invMaskIn.toNat + 1)) onField.totalLen.toNat) ∧
    onField.activity ≠ .init ∧
    (16 + onField.lenBytes.toNat + (5 : Word).toNat > min (16 + (onField.invMaskIn.toNat + 1)) onField.totalLen.toNat) := by decide

/-- H1 with the largest legal T; H2 without one; the smallest window code. -/
theorem witness_HdrOpensSession :
    ((Instr.hdr 5 0 12 12 (some ⟨0, 16⟩)).wf (defaultFormat 0) = true ∧ hdrS.arg1.toNat < 2 ^ 63 ∧
      hdrS.arg2.toNat + hdrS.arg3.toNat ≤ hdrS.arg1.toNat ∧ 4 ≤ (12 : BitVec 6).toNat ∧
      FirstChunkFits hdrS 12 (some ⟨0, 16⟩)) ∧
    ((Instr.hdr 9 488 63 63 none).wf (defaultFormat 0) = true ∧ 4 ≤ (63 : BitVec 6).toNat) ∧
    ((Instr.hdr 4 14 4 63 (some ⟨0, 11⟩)).wf (defaultFormat 0) = true ∧ 4 ≤ (4 : BitVec 6).toNat ∧
      FirstChunkFits hdrS 4 (some ⟨0, 11⟩)) := by
  unfold FirstChunkFits; decide

/-- INWIN 3; T one too large for the frame (H6) and for the boundary (H6c). -/
theorem witness_HdrRejects :
    hdrS.activity = .init ∧ (3 : BitVec 6).toNat < 4 ∧
    (4 ≤ (12 : BitVec 6).toNat ∧ (12 : BitVec 6) ≠ 63 ∧ ¬ FirstChunkFits hdrS 12 (some ⟨0, 17⟩)) ∧
    (4 ≤ (4 : BitVec 6).toNat ∧ (4 : BitVec 6) ≠ 63 ∧ ¬ FirstChunkFits hdrS 4 (some ⟨0, 12⟩)) := by
  unfold FirstChunkFits; decide

/-- A header that just fits; one byte more; the bound of D37. -/
theorem witness_InitBegins :
    ((5 : Word).toNat < 2 ^ 63 ∧ (0 : Word).toNat + (5 : Word).toNat ≤ (5 : Word).toNat) ∧
    ((4 : Word).toNat < 2 ^ 63 ∧ (0 : Word).toNat + (5 : Word).toNat > (4 : Word).toNat) ∧
    ((0x8000000000000000 : Word).toNat ≥ 2 ^ 63 ∧ (0x7fffffffffffffff : Word).toNat < 2 ^ 63) := by decide

/-- H1. -/
theorem witness_InitCommandOpensSession :
    ({ State.reset with inMem := hdrS.inMem } : State).busy = false ∧
    (Instr.hdr 5 0 12 12 (some ⟨0, 16⟩)).wf (defaultFormat 0) = true ∧ (21 : Word).toNat < 2 ^ 63 ∧
    (0 : Word).toNat + (5 : Word).toNat ≤ (21 : Word).toNat ∧
    streamBits hdrS.inMem all1 (8 * (0 : Word).toNat) (8 * (5 : Word).toNat) =
      encode (defaultFormat 0) (.hdr 5 0 12 12 (some ⟨0, 16⟩)) ++ [] ∧ 4 ≤ (12 : BitVec 6).toNat ∧
    FirstChunkFits (issueInit 0 21 0 5 { State.reset with inMem := hdrS.inMem }) 12 (some ⟨0, 16⟩) := by
  unfold FirstChunkFits; decide

/-- A state in each phase. -/
theorem witness_DecodeByPhase :
    State.reset.phase = .noSession ∧ ({ idleS with phase := .failed } : State).phase = .failed ∧
    ({ idleS with phase := .done } : State).phase = .done ∧ idleS.phase = .active := by decide

/-- The output complete; one byte of input short; one byte of room short. -/
theorem witness_LoopTestsStop :
    (linEnd.activity = .decode ∧ linEnd.outCur = linEnd.decompSize) ∧
    (linS.activity = .decode ∧ linS.outCur ≠ linS.decompSize ∧
      ({ linS with availIn := 5 } : State).availIn.toNat < linS.reqIn.toNat) ∧
    (linS.reqIn.toNat ≤ linS.availIn.toNat ∧ ({ linS with availOut := 4 } : State).availOut.toNat < reqOut linS) := by decide

/-- Unconstrained; a window of 2 bytes; a window of 1 byte. -/
theorem witness_ReqOutIsLapEnd :
    linS.invMaskOut.toNat = all1 ∧ (ringOut.invMaskOut.toNat ≠ all1 ∧ (1 : Nat) ≤ 62 ∧ ringOut.invMaskOut.toNat = 2 ^ 1 - 1) ∧
    ((0 : Nat) ≤ 62 ∧ (0 : Word).toNat = 2 ^ 0 - 1) := by decide

/-- A step in each activity. -/
theorem witness_StepKeepsInv :
    (Inv initS ∧ step initS = .next (stepped initS)) ∧ (Inv hdrS ∧ step hdrS = .next (stepped hdrS)) ∧
    (Inv linS ∧ step linS = .next (stepped linS)) ∧ (Inv onField ∧ step onField = .next (stepped onField)) ∧ (Inv crossedS ∧ step crossedS = .next (stepped crossedS)) := 
  ⟨⟨initS_inv, step_eq_stepped (by decide)⟩, ⟨hdrS_inv, step_eq_stepped (by decide)⟩, ⟨linS_inv, step_eq_stepped (by decide)⟩, ⟨onField_inv, step_eq_stepped (by decide)⟩,
   crossedS_inv, step_eq_stepped (by decide)⟩

/-- Each access in a session at a command boundary. -/
theorem witness_HostKeepsInv :
    Inv idleS ∧ (∃ t, hostWrite 0 2 idleS = .next t) ∧ (∃ q, hostRead 29 idleS = .next q) ∧
    (∃ t, hostStore 0 7 idleS = .next t) ∧ ∃ t, hostReset idleS = .next t := ⟨idleS_inv, ⟨_, rfl⟩, ⟨_, rfl⟩, ⟨_, rfl⟩, ⟨_, rfl⟩⟩

/-- After a match that leaves the cursor inside a byte, and at a byte boundary. -/
theorem witness_SessionBounds :
    (Inv linMid ∧ step linMid = .next (stepped linMid) ∧ (stepped linMid).phase ≠ .noSession ∧ (stepped linMid).inBitoff ≠ 0) ∧
    (Inv linS ∧ step linS = .next (stepped linS) ∧ (stepped linS).phase ≠ .noSession ∧ (stepped linS).inBitoff = 0) := 
  ⟨⟨linMid_inv, step_eq_stepped (by decide), by decide, by decide⟩, linS_inv, step_eq_stepped (by decide), by decide, by decide⟩

theorem ringOut_inv : Inv ringOut :=
  have h := linMid_inv.session (by decide)
  inv_decode (by decide)
    (fun _ => ⟨h.totalLen_lt, h.hdr_le, h.data_le, h.decomp_pos, .inr ⟨1, by decide, by decide⟩, h.invMaskIn, rfl,
      h.cursor_le, h.cursor_bit, h.outCur_le, h.reqIn_ge, h.reqIn_le,
      by rw [if_neg (by decide)]; exact ⟨by decide, by decide, by decide, by decide⟩⟩) (by decide)

/-- A symbol over a boundary with another byte of `IN` above the mask; a symbol in a window of 2 bytes with another of `OUT`. -/
theorem witness_SessionBounds_offsets :
    (Inv bitsAcross ∧ step bitsAcross = .next (stepped bitsAcross) ∧ bitsAcross.activity = .decode ∧
      ∀ a, a ≤ bitsAcross.inMask.toNat → Memory.read [(0, 0x01), (16, 0xff)] a = bitsAcross.inMem.read a) ∧
    (Inv ringOut ∧ step ringOut = .next (stepped ringOut) ∧ ringOut.activity = .decode ∧ Memory.wf [(0, 0x63), (1, 0x62), (2, 0xff)] ∧
      ∀ a, a ≤ ringOut.outMask.toNat → Memory.read [(0, 0x63), (1, 0x62), (2, 0xff)] a = ringOut.outMem.read a) := 
  ⟨⟨bitsAcross_inv, step_eq_stepped (by decide), rfl, by decide⟩,
   ringOut_inv, step_eq_stepped (by decide), rfl, by decide, by decide⟩

/-- `Done`, and `CorruptStream`. -/
theorem witness_DecodeEndsPrecisely :
    (Inv linEnd ∧ linEnd.activity = .decode ∧ step linEnd = .next (stepped linEnd) ∧ (stepped linEnd).activity = .idle) ∧
    (Inv corruptS ∧ corruptS.activity = .decode ∧ step corruptS = .next (stepped corruptS) ∧ (stepped corruptS).activity = .idle) := 
  ⟨⟨linEnd_inv, rfl, step_eq_stepped (by decide), by decide⟩, corruptS_inv, rfl, step_eq_stepped (by decide), by decide⟩

/-- INIT in a session, a header that fails, a header that opens a session, the end, a corrupt symbol. -/
theorem witness_PhaseMoves :
    ((∃ t, hostReset idleS = .next t) ∧ (∃ t, hostWrite 7 9 idleS = .next t) ∧ (∃ q, hostRead 16 idleS = .next q) ∧
      ∃ t, hostStore 3 9 idleS = .next t) ∧
    (Inv initAgain ∧ step initAgain = .next (stepped initAgain) ∧ initAgain.activity = .idle ∧ initAgain.cmd = 1 ∧
      (stepped initAgain).phase ≠ initAgain.phase) ∧
    (Inv hdrShort ∧ step hdrShort = .next (stepped hdrShort) ∧ hdrShort.activity = .init ∧ (stepped hdrShort).status ≠ .ok) ∧
    (Inv hdrS ∧ step hdrS = .next (stepped hdrS) ∧ hdrS.activity = .init ∧ (stepped hdrS).status = .ok) ∧
    (Inv linEnd ∧ step linEnd = .next (stepped linEnd) ∧ linEnd.activity = .decode ∧ linEnd.outCur = linEnd.decompSize ∧
      (stepped linEnd).phase ≠ linEnd.phase) ∧
    (Inv corruptS ∧ step corruptS = .next (stepped corruptS) ∧ corruptS.activity = .decode ∧ (stepped corruptS).activity = .idle ∧
      (stepped corruptS).status = .corruptStream ∧ (stepped corruptS).phase ≠ corruptS.phase) := 
  ⟨⟨⟨_, rfl⟩, ⟨_, rfl⟩, ⟨(_, _), rfl⟩, ⟨_, rfl⟩⟩, ⟨initAgain_inv, step_eq_stepped (by decide), rfl, rfl, by decide⟩, ⟨hdrShort_inv, step_eq_stepped (by decide), rfl, by decide⟩, ⟨hdrS_inv, step_eq_stepped (by decide), rfl, by decide⟩,
   ⟨linEnd_inv, step_eq_stepped (by decide), rfl, by decide, by decide⟩, corruptS_inv, step_eq_stepped (by decide), rfl, by decide, by decide, by decide⟩

/-- A header that opens a session, and a symbol. -/
theorem witness_SessionConstant :
    step hdrS = .next (stepped hdrS) ∧ step linS = .next (stepped linS) := ⟨step_eq_stepped (by decide), step_eq_stepped (by decide)⟩

/-- A symbol that crosses a boundary. -/
theorem witness_StepLeavesHostData :
    step litAcross = .next (stepped litAcross) := step_eq_stepped (by decide)

/-- In each activity: a command, a header that opens and one that fails, a symbol, CONT. -/
theorem witness_OutCursorMoves :
    (Inv initS ∧ step initS = .next (stepped initS) ∧ initS.activity = .idle) ∧ (Inv hdrS ∧ step hdrS = .next (stepped hdrS) ∧ hdrS.activity = .init) ∧
    (Inv hdrShort ∧ step hdrShort = .next (stepped hdrShort) ∧ hdrShort.activity = .init) ∧
    (Inv linS ∧ step linS = .next (stepped linS) ∧ linS.activity = .decode ∧ (stepped linS).activity = .decode) ∧
    (Inv onField ∧ step onField = .next (stepped onField) ∧ onField.activity = .decode ∧ (stepped onField).activity ≠ .decode) ∧
    (Inv crossedS ∧ step crossedS = .next (stepped crossedS) ∧ crossedS.activity = .symbol) := 
  ⟨⟨initS_inv, step_eq_stepped (by decide), rfl⟩, ⟨hdrS_inv, step_eq_stepped (by decide), rfl⟩, ⟨hdrShort_inv, step_eq_stepped (by decide), rfl⟩, ⟨linS_inv, step_eq_stepped (by decide), rfl, by decide⟩,
   ⟨onField_inv, step_eq_stepped (by decide), rfl, by decide⟩, crossedS_inv, step_eq_stepped (by decide), rfl⟩

/-- `hdrS`'s memory with another byte after the header. -/
def hdrOther : Memory := [(0, 0x05), (1, 0x60), (2, 0x18), (4, 0x10), (5, 0xff)]

/-- `linMid`'s input memory with another byte behind the cursor. -/
def linOther : Memory := [(0, 0x05), (1, 0x61), (2, 0x62), (3, 0xff)]

/-- Another memory: any at a command, one that differs after the header, one that differs behind the cursor. -/
theorem witness_InputReadSet :
    (Inv initS ∧ step initS = .next (stepped initS) ∧ initS.activity = .idle) ∧
    (Inv hdrS ∧ step hdrS = .next (stepped hdrS) ∧ hdrS.activity = .init ∧ hdrOther ≠ hdrS.inMem ∧
      ∀ p, p < 5 → hdrOther.read p = hdrS.inMem.read p) ∧
    (Inv linMid ∧ step linMid = .next (stepped linMid) ∧ linMid.activity = .decode ∧ linOther ≠ linMid.inMem ∧
      linMid.inByte.toNat = 4 ∧ linMid.availIn.toNat = 6 ∧
      ∀ p, p < 6 → 4 ≤ p → linOther.read (offsetOf p linMid.inMask.toNat) =
        linMid.inMem.read (offsetOf p linMid.inMask.toNat)) := 
  ⟨⟨initS_inv, step_eq_stepped (by decide), rfl⟩, ⟨hdrS_inv, step_eq_stepped (by decide), rfl, by decide, by decide⟩,
   linMid_inv, step_eq_stepped (by decide), rfl, by decide, by decide, by decide, by decide⟩

/-- A match, which changes the output. -/
theorem witness_OutputWriteSet :
    Inv linMid ∧ step linMid = .next (stepped linMid) ∧ (stepped linMid).outMem ≠ linMid.outMem := ⟨linMid_inv, step_eq_stepped (by decide), by decide⟩

/-- Another output memory that differs above the cursor. -/
theorem witness_OutputReadSet :
    Inv linMid ∧ linMid.activity = .decode ∧ Memory.wf (linMid.outMem ++ [(9, 0xff)]) ∧ linMid.outCur.toNat = 3 ∧
    (∀ q, q < 3 → Memory.read (linMid.outMem ++ [(9, 0xff)]) (offsetOf q linMid.outMask.toNat) =
      linMid.outMem.read (offsetOf q linMid.outMask.toNat)) ∧ step linMid = .next (stepped linMid) := ⟨linMid_inv, rfl, by decide, by decide, by decide, step_eq_stepped (by decide)⟩

/-- The shortest match: 10 bits, and a run after CONT. -/
theorem witness_SymbolProgress :
    (Inv linMid ∧ linMid.activity = .decode ∧ step linMid = .next (stepped linMid) ∧ (stepped linMid).activity = .decode ∧
      8 * (stepped linMid).inByte.toNat + (stepped linMid).inBitoff.toNat = 8 * linMid.inByte.toNat + 10) ∧
    (Inv crossedS ∧ crossedS.activity = .symbol ∧ step crossedS = .next (stepped crossedS) ∧ (stepped crossedS).activity = .decode) := 
  ⟨⟨linMid_inv, rfl, step_eq_stepped (by decide), by decide, by decide⟩, crossedS_inv, rfl, step_eq_stepped (by decide), by decide⟩

/-- A DECODE of two symbols. -/
theorem witness_DecodeTerminates :
    Inv linS ∧ linS.activity = .decode := ⟨linS_inv, rfl⟩

/-- A DECODE that starts on a field, with the least number of turns. -/
theorem witness_StepsAreDecodeLoop :
    Inv onField ∧ onField.activity = .decode ∧
    onField.decompSize.toNat - onField.outCur.toNat + 1 ≤ 4 := ⟨onField_inv, rfl, by decide⟩

/-- First one byte short of the field at 16, then with the whole frame. -/
theorem witness_ResumedDecode :
    Inv idleField ∧ idleField.busy = false ∧ idleField.phase = .active ∧ (16 : Word).toNat ≤ (21 : Word).toNat ∧
    (3 : Word).toNat ≤ (3 : Word).toNat ∧
    CommandRuns (issueDecode 16 3 idleField) (ran 2 (issueDecode 16 3 idleField)) ∧
    CommandRuns (issueDecode 21 3 (ran 2 (issueDecode 16 3 idleField)))
      (ran 4 (issueDecode 21 3 (ran 2 (issueDecode 16 3 idleField)))) ∧
    (ran 2 (issueDecode 16 3 idleField)).status = .needMoreInput ∧
    (ran 4 (issueDecode 21 3 (ran 2 (issueDecode 16 3 idleField)))).status = .done := 
  ⟨idleField_inv, by decide, by decide, by decide, by decide, commandRuns_of_runs (by decide), commandRuns_of_runs (by decide), by decide, by decide⟩

/-- A ring of 16 bytes and the whole output. -/
theorem witness_RingHostProgress :
    Inv idleField ∧ idleField.busy = false ∧ idleField.phase = .active ∧
    (21 : Word).toNat = min (idleField.inByte.toNat + idleField.inMask.toNat + 1) idleField.totalLen.toNat ∧
    (3 : Word).toNat = min (idleField.outCur.toNat + idleField.outMask.toNat + 1) idleField.decompSize.toNat ∧
    CommandRuns (issueDecode 21 3 idleField) (ran 4 (issueDecode 21 3 idleField)) := 
  ⟨idleField_inv, by decide, by decide, by decide, by decide, commandRuns_of_runs (by decide)⟩

/-- A window of 2 bytes, its largest distance. -/
theorem witness_PendingIsInPlace :
    ringOut.outMem.wf ∧ IsWindowMask 1 ∧ 1 ≤ 2 ∧ 2 ≤ 3 ∧ 2 ≤ 1 + 1 := ⟨by decide, .inr ⟨1, by decide, by decide⟩, by decide, by decide, by decide⟩

/-- In a session, and without one at indices 17 and 33; the indices next to them without a register. -/
theorem witness_HostReads :
    idleS.busy = false ∧ idleS.phase ≠ .noSession ∧ State.reset.busy = false ∧ State.reset.phase = .noSession ∧
    (17 ≤ 17 ∧ 33 ≤ 33) ∧ (8 ≤ 8 ∧ 15 ≤ 15) ∧ 34 ≤ 34 := by decide

/-- `CMD` values 5, 6, 4 and 7; the read-only indices; those without a register; a memory with a byte at the offset. -/
theorem witness_HostWrites :
    idleS.busy = false ∧ 5 % 4 = 1 ∧ 6 % 4 = 2 ∧ 4 % 4 = 0 ∧ 7 % 4 = 3 ∧ (16 ≤ 33 ∧ 33 ≤ 33) ∧ (8 ≤ 8 ∧ 15 ≤ 15) ∧
    34 ≤ 34 ∧ idleS.inMem.wf ∧ idleS.inMem.read 3 = 0x63 := by decide

/-- A command issued, and a command in progress. -/
theorem witness_HostKeptOut :
    initS.busy = true ∧ linS.busy = true := by decide

/-- A session at a command boundary. -/
theorem witness_ResetThenDecode :
    idleS.busy = false := by decide

end Sys2Proof.Tests
end

/-! The accumulator of R87 against `take` (O14): it holds the next bits of the stream, and its fetch position is the
cursor behind them. -/

namespace Sys2Proof.Machine

/-! ### Runs of bits -/

/-- Without an error a run of `a + b` bits is a run of `a` bits and then one of `b` bits. -/
theorem take_add {m : Memory} {e : Env} {a v : Nat} {w w1 : Work} (b : Nat) (h : take m e a w = .ok (v, w1)) :
    take m e (a + b) w =
      match take m e b w1 with
      | .error st => .error st
      | .ok (u, w2) => .ok (v + 2 ^ a * u, w2) := by
  induction a generalizing w v with
  | zero =>
    simp only [take, Except.ok.injEq, Prod.mk.injEq] at h
    obtain ⟨rfl, rfl⟩ := h
    rw [Nat.zero_add]
    cases take m e b w <;> simp
  | succ a ih =>
    obtain ⟨c, w3, v', hb, ht, rfl⟩ := take_succ_eq_ok h
    rw [Nat.add_right_comm, take, hb]
    simp only [ih ht]
    cases take m e b w1 with
    | error st => rfl
    | ok q => simp only [Nat.pow_succ]; congr 2; ring

/-- A run that answers splits at every length. -/
theorem take_split {m : Memory} {e : Env} {a b v : Nat} {w w2 : Work} (h : take m e (a + b) w = .ok (v, w2)) :
    ∃ w1, take m e a w = .ok (v % 2 ^ a, w1) ∧ take m e b w1 = .ok (v / 2 ^ a, w2) := by
  induction a generalizing w v with
  | zero => exact ⟨w, by simp [take, Nat.mod_one], by simpa using h⟩
  | succ a ih =>
    rw [Nat.add_right_comm] at h
    obtain ⟨c, w3, v', hb, ht, rfl⟩ := take_succ_eq_ok h
    obtain ⟨w1, h1, h2⟩ := ih ht
    obtain ⟨d, w4, -, rfl, -⟩ := takeBit_eq_ok hb
    have hc : d.toNat >>> w4.bitOff % 2 < 2 := Nat.mod_lt _ (by omega)
    generalize d.toNat >>> w4.bitOff % 2 = c at hb hc
    have hdiv : (c + 2 * v') / 2 = v' := by omega
    have hmod : (c + 2 * v') % 2 = c := by omega
    refine ⟨w1, ?_, ?_⟩
    · simp [take, hb, h1, Nat.pow_succ', Nat.mod_mul, hdiv, hmod]
    · rw [h2, Nat.pow_succ', ← Nat.div_div_eq_div_mul, hdiv]

/-! ### The rest of a byte -/

/-- The cursor stands inside a byte that a fetch reads without a crossing. -/
structure InByte (m : Memory) (e : Env) (w : Work) (b : Byte) : Prop where
  offBoundary : onBoundary e w = false
  checks : byteChecks e w.inByte = none
  byte : b = m.read (offsetOf w.inByte e.inMask)

/-- Inside a byte the fetch answers it and leaves the cursor. -/
theorem InByte.fetchByte {m : Memory} {e : Env} {w : Work} {b : Byte} (h : InByte m e w b) :
    fetchByte m e w = .ok (b, w) :=
  fetchByte_eq_ok.2 ⟨crossIfNeeded_of_not_onBoundary h.offBoundary, h.checks, h.byte⟩

/-- A fetch leaves the cursor inside the byte it answers, where the field of a boundary is shorter than a chunk. -/
theorem inByte_of_fetchByte {m : Memory} {e : Env} {w w' : Work} {b : Byte} (hs : e.chunked = true → e.lenBytes < e.stride)
    (h : fetchByte m e w = .ok (b, w')) : InByte m e w' b := by
  obtain ⟨hc, hk, hb⟩ := fetchByte_eq_ok.1 h
  refine ⟨?_, hk, hb⟩
  unfold crossIfNeeded at hc
  split at hc
  case isTrue hon =>
    obtain ⟨-, v, hv⟩ := crossBoundary_eq_ok hc
    obtain ⟨-, rfl⟩ := contApply_eq_ok.1 hv
    simp only [onBoundary, Bool.and_eq_true] at hon
    have := hs hon.1
    simp [onBoundary, hon.1]; omega
  case isFalse hoff =>
    rw [← Except.ok.inj hc]; simpa using hoff

/-- The last `k` bits of the byte the cursor is inside. -/
theorem InByte.take {m : Memory} {e : Env} {b : Byte} {w : Work} (h : InByte m e w b) {k : Nat}
    (hk : w.bitOff + (k + 1) = 8) :
    Machine.take m e (k + 1) w = .ok (b.toNat >>> w.bitOff, { w with inByte := w.inByte + 1, bitOff := 0 }) := by
  induction k generalizing w with
  | zero =>
    have hlt : b.toNat >>> w.bitOff < 2 := by
      have := b.isLt
      rw [show w.bitOff = 7 by omega, Nat.shiftRight_eq_div_pow]; omega
    simp [Machine.take, takeBit, h.fetchByte, advanceBit, show w.bitOff + 1 = 8 by omega, Nat.mod_eq_of_lt hlt]
  | succ k ih =>
    have hadv : advanceBit w = { w with bitOff := w.bitOff + 1 } := by
      simp [advanceBit, show w.bitOff + 1 ≠ 8 by omega]
    have hin : InByte m e (advanceBit w) b := by rw [hadv]; exact ⟨h.offBoundary, h.checks, h.byte⟩
    have hlater := ih hin (by rw [hadv]; simp only; omega)
    rw [Machine.take, takeBit, h.fetchByte]
    simp only [hlater]
    simp only [hadv, Nat.shiftRight_succ]
    congr 2; omega

/-- A byte that a fetch answers is the rest of it as a run of bits. -/
theorem take_of_fetchByte {m : Memory} {e : Env} {w w' : Work} {b : Byte} (hs : e.chunked = true → e.lenBytes < e.stride)
    (hw : w.bitOff < 8) (h : fetchByte m e w = .ok (b, w')) :
    take m e (8 - w.bitOff) w =
      .ok (b.toNat >>> w'.bitOff, { w' with inByte := w'.inByte + 1, bitOff := 0 }) := by
  have hin := inByte_of_fetchByte hs h
  have hbit := fetchByte_bitOff h
  obtain ⟨k, hk⟩ : ∃ k, 8 - w.bitOff = k + 1 := ⟨7 - w.bitOff, by omega⟩
  have hrest := hin.take (k := k) (by omega)
  rw [hk, ← hrest, take, take, takeBit, takeBit, h, hin.fetchByte]

/-! ### What the accumulator holds -/

/-- The accumulator stands for the cursor `w`: it holds the `nbits` bits that follow `w`, and its fetch position is the
cursor behind them. -/
structure Holds (m : Memory) (e : Env) (w : Work) (a : Accum) : Prop where
  bits : take m e a.nbits w = .ok (a.acc, a.fetch)
  fetch_lt : a.fetch.bitOff < 8

/-- The environment of a session as the accumulator needs it: the field is shorter than a chunk, and no byte below
`AVAIL_IN` fails a check. -/
structure AccumEnv (e : Env) : Prop where
  field : e.chunked = true → e.lenBytes < e.stride
  avail_le : e.avail ≤ e.total
  window : e.inMask ≠ all1 → e.avail ≤ e.base + e.inMask + 1

section
variable {m : Memory} {e : Env} {w : Work} {a : Accum}

/-- Emptied at a cursor the accumulator stands for it. -/
theorem holds_accEmpty (hw : w.bitOff < 8) : Holds m e w (accEmpty w) := ⟨rfl, hw⟩

/-- Loading the byte at the fetch position keeps what the accumulator stands for. -/
theorem Holds.accLoad (he : AccumEnv e) (h : Holds m e w a) {b : Byte} {f : Work}
    (hf : fetchByte m e a.fetch = .ok (b, f)) : Holds m e w (accLoad a b f) := by
  have hrest := take_of_fetchByte he.field h.fetch_lt hf
  refine ⟨?_, by simp [Machine.accLoad]⟩
  simp only [Machine.accLoad, fetchByte_bitOff hf, take_add _ h.bits, hrest]
  rw [Nat.mul_comm]

/-- A byte that a prefetch may load is one that a fetch answers without a crossing. -/
theorem fetchByte_of_accMayLoad (he : AccumEnv e) (h : accMayLoad e a = true) :
    fetchByte m e a.fetch = .ok (m.read (offsetOf a.fetch.inByte e.inMask), a.fetch) := by
  simp only [accMayLoad, Bool.and_eq_true, Bool.or_eq_true, Bool.not_eq_true', decide_eq_true_eq] at h
  obtain ⟨⟨-, havail⟩, hbnd⟩ := h
  have := he.avail_le
  refine InByte.fetchByte ⟨?_, byteChecks_eq_none.2 ⟨?_, by omega, havail⟩, rfl⟩
  · rcases hbnd with hc | hb
    · simp [onBoundary, hc]
    · simp [onBoundary, show a.fetch.inByte ≠ a.fetch.nextBnd by omega]
  · by_cases hmask : e.inMask = all1
    · exact .inl hmask
    · have := he.window hmask; exact .inr (by omega)

/-- The prefetch keeps what the accumulator stands for. -/
theorem Holds.accRefill (he : AccumEnv e) (fuel : Nat) (h : Holds m e w a) : Holds m e w (accRefill m e fuel a) := by
  induction fuel generalizing a with
  | zero => exact h
  | succ fuel ih =>
    unfold Machine.accRefill
    split
    case isTrue hmay => exact ih (h.accLoad he (fetchByte_of_accMayLoad he hmay))
    case isFalse => exact h

/-- A run of bits that passes the end of what is held fails with the status of the fetch there. -/
theorem Holds.take_eq_error (h : Holds m e w a) {n : Nat} {st : Status} (hn : a.nbits < n)
    (hf : fetchByte m e a.fetch = .error st) : take m e n w = .error st := by
  obtain ⟨k, rfl⟩ : ∃ k, n = a.nbits + (k + 1) := ⟨n - a.nbits - 1, by omega⟩
  rw [take_add _ h.bits, take, takeBit, hf]

/-- Fetching on demand: either `n` bits are held, or the fetch fails with the status by which `take` fails. -/
theorem Holds.accDemand (he : AccumEnv e) {n : Nat} (fuel : Nat) (h : Holds m e w a) (hn : n ≤ a.nbits + fuel) :
    (∃ st, accDemand m e n fuel a = .error st ∧ take m e n w = .error st) ∨
      (∃ b, accDemand m e n fuel a = .ok b ∧ Holds m e w b ∧ n ≤ b.nbits) := by
  induction fuel generalizing a with
  | zero => exact .inr ⟨a, rfl, h, hn⟩
  | succ fuel ih =>
    unfold Machine.accDemand
    by_cases henough : n ≤ a.nbits
    · exact .inr ⟨a, by simp [henough], h, henough⟩
    · rw [if_neg henough]
      cases hf : Machine.fetchByte m e a.fetch with
      | error st => exact .inl ⟨st, rfl, h.take_eq_error (by omega) hf⟩
      | ok p =>
        obtain ⟨b, f⟩ := p
        have hbit := fetchByte_bitOff hf
        have := h.fetch_lt
        exact ih (h.accLoad he hf) (by simp only [Machine.accLoad]; omega)

/-- `take(n)` through the accumulator fails as `take` fails, or gives its value and stands for its cursor. -/
theorem Holds.accTake (he : AccumEnv e) (n : Nat) (h : Holds m e w a) :
    (∃ st, accTake m e n a = .error st ∧ take m e n w = .error st) ∨
      (∃ v b w', accTake m e n a = .ok (v, b) ∧ take m e n w = .ok (v, w') ∧ Holds m e w' b) := by
  have hfill : Holds m e w (if a.nbits < Config.refillThreshold then Machine.accRefill m e 8 a else a) := by
    split
    · exact h.accRefill he 8
    · exact h
  unfold Machine.accTake
  rcases hfill.accDemand he (n := n) n (by omega) with ⟨st, hd, ht⟩ | ⟨b, hd, hb, hn⟩
  · exact .inl ⟨st, by simp only [hd], ht⟩
  · obtain ⟨k, hk⟩ := Nat.exists_eq_add_of_le hn
    have hbits := hb.bits
    rw [hk] at hbits
    obtain ⟨w', hlow, hhigh⟩ := take_split hbits
    have hleft : b.nbits - n = k := by omega
    exact .inr ⟨_, { b with acc := b.acc / 2 ^ n, nbits := b.nbits - n }, w', by simp only [hd], hlow,
      by simpa only [hleft] using hhigh, hb.fetch_lt⟩

/-- A list of fields through the accumulator is the list of fields by `take`. -/
theorem Holds.accTakes_eq (he : AccumEnv e) (ns : List Nat) (h : Holds m e w a) : accTakes m e ns a = takes m e ns w := by
  induction ns generalizing w a with
  | nil => rfl
  | cons n ns ih =>
    rw [accTakes, takes]
    rcases h.accTake he n with ⟨st, ha, ht⟩ | ⟨v, b, w', ha, ht, hb⟩
    · simp only [ha, ht]
    · simp only [ha, ht, ih hb]

end

/-- Settles O14, by a simulation: at every field the accumulator stands for the cursor of `take` (`Holds`). -/
theorem accumulatorAgrees : Obligations.AccumulatorAgrees := by
  intro m e w ns hw hchunk havail hwindow _
  exact (holds_accEmpty hw).accTakes_eq ⟨fun hc => (hchunk hc).2.2, havail, hwindow⟩ ns

end Sys2Proof.Machine

/-! The host's accesses, said once: what each can do to the state (O39, O56, O57). -/

namespace Sys2Proof.Machine

/-! ### The interface -/

/-- Between commands the engine is idle with no command latched. -/
theorem busy_eq_false {s : State} : s.busy = false ↔ s.activity = .idle ∧ s.cmd = 0 := by
  simp [State.busy]

/-- The indices at which the interface has a register (spec R23, R24). -/
theorem regAt_eq_none {index : Nat} {s : State} :
    regAt index s = none ↔ (8 ≤ index ∧ index ≤ 15) ∨ 34 ≤ index := by
  by_cases hi : index < 34
  · interval_cases index <;> simp [regAt]
  · obtain ⟨k, rfl⟩ := Nat.exists_eq_add_of_le' (Nat.le_of_not_lt hi)
    simp [regAt]

/-- A write at an index that the host may not write: read-only, or no register (log entry 9). -/
theorem hostWrite_of_not_writable {s : State} {index : Nat} (v : Nat) (hs : s.busy = false)
    (hi : index ∉ [0, 1, 2, 3, 4, 7]) :
    (regAt index s = none ∧ hostWrite index v s = .fault (.noSuchRegister index)) ∨
      (regAt index s ≠ none ∧ hostWrite index v s = .refused (.readOnlyRegister index)) := by
  unfold hostWrite
  rw [hs]
  cases hr : regAt index s <;> split <;> simp_all

/-! ### Writes -/

/-- A write of `CMD`: 1 and 2 are latched, 0 and 3 are ignored (spec R23, R59). -/
theorem issueCommand_eq (v : Nat) (s : State) :
    issueCommand v s = if v % 4 = 1 then { s with cmd := 1 } else if v % 4 = 2 then { s with cmd := 2 } else s := by
  have hv : BitVec.ofNat 2 v = BitVec.ofNat 2 (v % 4) := by simp [← BitVec.toNat_inj]
  have hlt : v % 4 < 4 := Nat.mod_lt _ (by omega)
  unfold issueCommand
  rw [hv]
  generalize v % 4 = r at hlt
  interval_cases r <;> rfl

/-- What a host write can do: `CMD`, the arguments and `OUT_BASE` may move, nothing else does. -/
theorem hostWrite_eq_next {index v : Nat} {s t : State} (h : hostWrite index v s = .next t) :
    s.busy = false ∧ ∃ c a0 a1 a2 a3 ob,
      t = { s with cmd := c, arg0 := a0, arg1 := a1, arg2 := a2, arg3 := a3, outBase := ob } := by
  cases hs : s.busy with
  | true => simp [hostWrite, hs] at h
  | false =>
    refine ⟨rfl, ?_⟩
    by_cases hi : index ∈ [0, 1, 2, 3, 4, 7]
    · simp only [List.mem_cons, List.not_mem_nil, or_false] at hi
      rcases hi with rfl | hi
      · simp only [hostWrite, hs, Bool.false_eq_true, if_false, Host.Outcome.next.injEq] at h
        rw [← h, issueCommand_eq]
        split_ifs <;> exact ⟨_, _, _, _, _, _, rfl⟩
      · rcases hi with rfl | rfl | rfl | rfl | rfl <;>
        · simp only [hostWrite, hs, Bool.false_eq_true, if_false, Host.Outcome.next.injEq] at h
          exact ⟨_, _, _, _, _, _, h.symm⟩
    · rcases hostWrite_of_not_writable v hs hi with ⟨-, hw⟩ | ⟨-, hw⟩ <;> rw [hw] at h <;> contradiction

/-- What a host read can do: only the model's count of free values moves (log entry 8). -/
theorem hostRead_eq_next {index : Nat} {s : State} {q : State × Word} (h : hostRead index s = .next q) :
    s.busy = false ∧ ∃ n, q.1 = { s with freeCount := n } := by
  unfold hostRead at h
  split at h
  · contradiction
  · rename_i hb
    refine ⟨by simpa using hb, ?_⟩
    split at h
    · contradiction
    · split at h <;> cases h <;> exact ⟨_, rfl⟩

/-- What a host store can do (spec R30). -/
theorem hostStore_eq_next {offset : Word} {b : Byte} {s t : State} (h : hostStore offset b s = .next t) :
    s.busy = false ∧ t = { s with inMem := s.inMem.write offset.toNat b } := by
  unfold hostStore at h
  split at h
  · contradiction
  · rename_i hb; cases h; exact ⟨by simpa using hb, rfl⟩

/-- What the reset can do: memories, ROMs and the model's count stay (spec R140, R141). -/
theorem hostReset_eq_next {s t : State} (h : hostReset s = .next t) :
    t = { State.reset with
      inMem := s.inMem, outMem := s.outMem, shortRom := s.shortRom, longRom := s.longRom, freeCount := s.freeCount } := by
  unfold hostReset at h
  split at h
  · contradiction
  · cases h; rfl

/-! ### Reads -/

/-- A register outside a missing session reads as it is (spec R23, R24). -/
theorem hostRead_of_regAt {index : Nat} {s : State} {v : Word} (hs : s.busy = false) (hv : regAt index s = some v)
    (hi : index < 17 ∨ s.phase ≠ .noSession) : hostRead index s = .next (s, v) := by
  have hfree : readsUnspecified index s = false := by
    rcases hi with h | h
    · simp [readsUnspecified, show ¬ 17 ≤ index by omega]
    · simp [readsUnspecified, h]
  simp [hostRead, hs, hv, hfree]

/-- Without a session its registers read as free values (spec R24; log entry 8). -/
theorem hostRead_without_session {index : Nat} {s : State} (hs : s.busy = false) (hp : s.phase = .noSession)
    (hlo : 17 ≤ index) (hhi : index ≤ 33) :
    hostRead index s = .next ({ s with freeCount := s.freeCount + 1 }, Config.freeReg s.freeCount) := by
  cases hv : regAt index s with
  | none => have := regAt_eq_none.1 hv; omega
  | some v => simp [hostRead, hs, hv, readsUnspecified, hlo, hp]

/-- An index without a register is a fault (log entry 9). -/
theorem hostRead_of_regAt_none {index : Nat} {s : State} (hs : s.busy = false) (hv : regAt index s = none) :
    hostRead index s = .fault (.noSuchRegister index) := by simp [hostRead, hs, hv]

/-! ### The statements -/

/-- Settles O56, from the lemmas on a host read by index. -/
theorem hostReads : Obligations.HostReads := by
  refine ⟨by decide, fun s hs => ?_⟩
  have low : ∀ {index v}, regAt index s = some v → index < 17 → hostRead index s = .next (s, v) :=
    fun hv hi => hostRead_of_regAt hs hv (.inl hi)
  refine ⟨low rfl (by decide), low rfl (by decide), low rfl (by decide), low rfl (by decide), low rfl (by decide),
    low rfl (by decide), low rfl (by decide), low rfl (by decide), low rfl (by decide), fun hp => ?_,
    fun hp index hlo hhi => ⟨_, hostRead_without_session hs hp hlo hhi⟩,
    fun index hi => hostRead_of_regAt_none hs (regAt_eq_none.2 hi), fun offset => by simp [hostFetch, hs]⟩
  have session : ∀ {index v}, regAt index s = some v → hostRead index s = .next (s, v) :=
    fun hv => hostRead_of_regAt hs hv (.inr hp)
  exact ⟨session rfl, session rfl, session rfl, session rfl, session rfl, session rfl, session rfl, session rfl,
    session rfl, session rfl, session rfl, session rfl, session rfl, session rfl, session rfl, session rfl, session rfl⟩

/-- Settles O57, from the lemmas on a host write and on a byte stored. -/
theorem hostWrites : Obligations.HostWrites := by
  intro s v hs
  have command : hostWrite 0 v s = .next (issueCommand v s) := by simp [hostWrite, hs]
  refine ⟨by simp [hostWrite, hs], by simp [hostWrite, hs], by simp [hostWrite, hs], by simp [hostWrite, hs],
    by simp [hostWrite, hs], fun hv => ?_, fun hv => ?_, fun hv => ?_, fun index hi => ?_, fun index hi => ?_,
    fun hwf offset b => ?_⟩
  · simp [command, issueCommand_eq, hv]
  · simp [command, issueCommand_eq, hv]
  · rw [command, issueCommand_eq, if_neg (by omega), if_neg (by omega)]
  · rcases hostWrite_of_not_writable v hs (show index ∉ [0, 1, 2, 3, 4, 7] by simp; omega) with ⟨hr, -⟩ | ⟨-, hw⟩
    · have := regAt_eq_none.1 hr; omega
    · exact hw
  · rcases hostWrite_of_not_writable v hs (show index ∉ [0, 1, 2, 3, 4, 7] by simp; omega) with ⟨-, hw⟩ | ⟨hr, -⟩
    · exact hw
    · exact absurd (regAt_eq_none.2 hi) hr
  · exact ⟨{ s with inMem := s.inMem.write offset.toNat b }, by simp [hostStore, hs],
      Memory.read_write_same hwf _ _, fun a ha => Memory.read_write_other _ _ ha,
      Memory.write_wf hwf offset.isLt, rfl⟩

end Sys2Proof.Machine

/-! What a step can do, said once: `StepCase` lists every outcome of a step on any state, with what it was read from. The
statements about phases, frames, cursors and the invariant are case splits over it. -/

namespace Sys2Proof.Machine

/-! ### What a description of a format can give -/

/-- Every value that a description can give has a property, whatever the fields hold. -/
inductive Gives {α : Type} (P : α → Prop) : Parse α → Prop where
  | done {a : α} (h : P a) : Gives P (.done a)
  | take {n : Nat} {k : Nat → Parse α} (h : ∀ v, v < 2 ^ n → Gives P (k v)) : Gives P (.take n k)
  | align {k : Parse α} (h : Gives P k) : Gives P (.align k)
  | byte {k : Nat → Parse α} (h : ∀ v, Gives P (k v)) : Gives P (.byte k)

section
variable {α : Type} {P : α → Prop}

/-- What the reader answers has the property. -/
theorem Gives.runParse {m : Memory} {e : Env} {p : Parse α} (hp : Gives P p) {w w' : Work} {a : α}
    (h : Machine.runParse m e p w = .ok (a, w')) : P a := by
  induction hp generalizing w with
  | done ha =>
    simp only [Machine.runParse, Except.ok.injEq, Prod.mk.injEq] at h
    exact h.1 ▸ ha
  | @take n k _ ih =>
    rw [Machine.runParse] at h
    cases ht : Machine.take m e n w with
    | error st => simp [ht] at h
    | ok q => exact ih q.1 (take_lt ht) (by simpa [ht] using h)
  | align _ ih => exact ih (by simpa [Machine.runParse] using h)
  | byte _ ih =>
    rw [Machine.runParse] at h
    cases ht : Machine.takeByte m e w with
    | error st => simp [ht] at h
    | ok q => exact ih q.1.toNat (by simpa [ht] using h)

theorem Gives.takeOpt {n : Nat} {k : Nat → Parse α} (h : ∀ v, Gives P (k v)) : Gives P (Parse.takeOpt n k) := by
  unfold Parse.takeOpt; split
  · exact h 0
  · exact .take fun v _ => h v

theorem Gives.takeWide {n : Nat} {k : Nat → Parse α} (h : ∀ v, Gives P (k v)) : Gives P (Parse.takeWide n k) := by
  unfold Parse.takeWide; split_ifs
  · exact h 0
  · exact .take fun v _ => h v
  · exact .take fun lo _ => .take fun hi _ => h _

theorem Gives.bytesLE {n : Nat} {k : Nat → Parse α} (h : ∀ v, Gives P (k v)) : Gives P (Parse.bytesLE n k) := by
  induction n generalizing k with
  | zero => exact h 0
  | succ n ih => exact .byte fun b => ih fun v => h _

theorem Gives.readDistance {k : BitVec 5 → BitVec 31 → Parse α} (h : ∀ a b, Gives P (k a b)) :
    Gives P (Sys2Proof.readDistance k) := .take fun _ _ => .takeOpt fun _ => h _ _

end

theorem shortInstr_slot (idx : Nat) (x : BitVec 4) (dn : BitVec 5) (df : BitVec 31) :
    (shortInstr idx x dn df).slot = .symbol := by unfold shortInstr; split <;> rfl

theorem literalInstr_slot (idx : Nat) (x : BitVec 32) : (literalInstr idx x).slot = .symbol := by
  unfold literalInstr; split <;> rfl

theorem longMatchInstr_slot (idx : Nat) (x : BitVec 32) (dn : BitVec 5) (df : BitVec 31) :
    (longMatchInstr idx x dn df).slot = .symbol := by unfold longMatchInstr; split <;> rfl

/-- The fields of a symbol are a symbol's (spec R52). -/
theorem gives_symbolParse (f : Format) : Gives (fun i => i.slot = .symbol) (symbolParse f) := by
  refine .take fun sel _ => ?_
  split
  · refine .take fun idx _ => ?_
    split
    · exact .take fun x _ => .readDistance fun _ _ => .done rfl
    · exact .takeOpt fun x => .readDistance fun _ _ => .done (shortInstr_slot _ _ _ _)
  · refine .take fun idx _ => .takeOpt fun x => ?_
    split
    · exact .done (literalInstr_slot _ _)
    · exact .readDistance fun _ _ => .done (longMatchInstr_slot _ _ _ _)

/-- `LENB` and `TRAIL` are absent with an unconstrained input window and present with a legal constrained one (spec R51, R73;
log entry 20). -/
structure TrailPlaced (inwin : BitVec 6) (trail : Option Trail) : Prop where
  absent : inwin.toNat = Config.winUnconstrained → trail = none
  present : Config.inWinMin ≤ inwin.toNat → inwin.toNat ≠ Config.winUnconstrained → trail ≠ none

/-- An instruction is a header whose trail stands where its window code asks it. -/
def IsHeader (i : Instr) : Prop := ∃ e fr a b tr, i = .hdr e fr a b tr ∧ TrailPlaced a tr

/-- The fields of a header are a header's (spec R51). -/
theorem gives_headerParse : Gives IsHeader headerParse := by
  refine .take fun e _ => .takeWide fun frac => .take fun inwin hi => .take fun outwin _ => ?_
  have hin : (BitVec.ofNat 6 inwin).toNat = inwin := by simpa using hi
  simp only
  split
  case isTrue h => exact .done ⟨_, _, _, _, _, rfl, fun _ => rfl, by rw [hin]; omega⟩
  case isFalse h =>
    refine .take fun lenb _ => .align <| .bytesLE fun v => .done ⟨_, _, _, _, _, rfl, ?_, by simp⟩
    rw [hin]; omega

/-! ### The statuses of a read -/

/-- A status that a read can raise: the one at the end of the frame, or one of the two of the other checks (spec R82, R110). -/
def ReadStatus (e : Env) (st : Status) : Prop := st = e.totalStatus ∨ st = .corruptStream ∨ st = .needMoreInput

theorem contChecks_status {e : Env} {w : Work} {st : Status} (h : contChecks e w = some st) : ReadStatus e st := by
  unfold contChecks at h; split_ifs at h <;> simp_all [ReadStatus]

theorem byteChecks_status {e : Env} {p : Nat} {st : Status} (h : byteChecks e p = some st) : ReadStatus e st := by
  unfold byteChecks at h; split_ifs at h <;> simp_all [ReadStatus]

section
variable {m : Memory} {e : Env} {st : Status}

theorem fetchByte_status {w : Work} (h : fetchByte m e w = .error st) : ReadStatus e st := by
  unfold fetchByte crossIfNeeded crossBoundary readCont at h
  split at h
  case h_1 st' hc =>
    obtain rfl := Except.error.inj h
    split at hc
    · cases hk : contChecks e w with
      | some st'' => rw [hk] at hc; cases hc; exact contChecks_status hk
      | none => rw [hk] at hc; exact .inr (.inl (contApply_eq_error hc))
    · contradiction
  case h_2 w' _ =>
    split at h
    · rename_i hb; cases h; exact byteChecks_status hb
    · contradiction

theorem take_status {n : Nat} {w : Work} (h : take m e n w = .error st) : ReadStatus e st := by
  induction n generalizing w with
  | zero => simp [take] at h
  | succ n ih =>
    rw [take, takeBit] at h
    cases hf : fetchByte m e w with
    | error st' => rw [hf] at h; cases h; exact fetchByte_status hf
    | ok p =>
      rw [hf] at h
      cases ht : take m e n (advanceBit p.2) with
      | error st' => simp only [ht] at h; cases h; exact ih ht
      | ok q => simp [ht] at h

/-- A description fails with the status of a read. -/
theorem runParse_status {α : Type} {p : Parse α} {w : Work} (h : runParse m e p w = .error st) : ReadStatus e st := by
  induction p generalizing w with
  | done a => simp [runParse] at h
  | take n k ih =>
    rw [runParse] at h
    cases ht : take m e n w with
    | error st' => rw [ht] at h; cases h; exact take_status ht
    | ok q => rw [ht] at h; exact ih _ h
  | align k ih => rw [runParse] at h; exact ih h
  | byte k ih =>
    rw [runParse, takeByte] at h
    cases hf : fetchByte m e w with
    | error st' => rw [hf] at h; cases h; exact fetchByte_status hf
    | ok q => rw [hf] at h; exact ih _ h

end

/-! ### The meaning of a symbol -/

/-- A match is CopyMatch with its operands (spec R91, R92, R99). -/
theorem exec_of_matchOperands {i : Instr} {s : State} {n d : Nat} (h : matchOperands s.format i = some (n, d)) :
    exec i s = copyMatch n d s := by
  have hx := exec_symbol_eq i s
  unfold matchOperands at h
  cases hv : i.view <;> simp only [hv, Option.some.injEq, Prod.mk.injEq, reduceCtorEq] at h hx <;>
    rw [← h.1, ← h.2, hx]

/-- A literal run is CopyLiteralRun with its operand (spec R95). -/
theorem exec_of_literalOperand {i : Instr} {s : State} {n : Nat} (h : literalOperand s.format i = some n) :
    exec i s = copyLiteralRun n s := by
  have hx := exec_symbol_eq i s
  unfold literalOperand at h
  cases hv : i.view <;> simp only [hv, Option.some.injEq, reduceCtorEq] at h hx
  rw [← h, hx]

/-- A symbol is a match or a literal run (spec R52). -/
theorem operands_of_symbol (f : Format) {i : Instr} (h : i.slot = .symbol) :
    (∃ n d, matchOperands f i = some (n, d)) ∨ (∃ n, literalOperand f i = some n) := by
  unfold Instr.slot at h
  unfold matchOperands literalOperand
  cases hv : i.view <;> simp [hv] at h ⊢

/-! ### The cases of a step -/

/-- The working copy from which the next step reads a symbol's fields: that of the cursor registers, at the top of a turn
whose tests pass and off a boundary, or the one that has crossed (spec R78, R111). -/
inductive ReadsFrom (s : State) : Work → Prop where
  | turn (ha : s.activity = .decode) (hl : loopTest s = none) (hb : onBoundary (decodeEnv s) (copyWork s) = false) :
      ReadsFrom s (copyWork s)
  | crossed (ha : s.activity = .symbol) : ReadsFrom s s.work

/-- The next step is inside a DECODE, past the tests of its turn. -/
def InSymbol (s : State) : Prop := (s.activity = .decode ∧ loopTest s = none) ∨ s.activity = .symbol

theorem ReadsFrom.inSymbol {s : State} {w : Work} : ReadsFrom s w → InSymbol s
  | .turn ha hl _ => .inl ⟨ha, hl⟩
  | .crossed ha => .inr ha

theorem InSymbol.activity {s : State} (h : InSymbol s) : s.activity = .decode ∨ s.activity = .symbol := h.imp_left And.left

/-- A symbol commits (spec R89, R96, R97): its instruction `i`, the length it produces, its pending writes, and the working
copy that the cursor registers become; `w1` stood after its fields. -/
inductive Commits (s : State) (i : Instr) (w1 : Work) : List (Nat × Byte) → Work → Nat → Prop where
  | copies {n d : Nat} (ho : matchOperands s.format i = some (n, d)) (hc : matchChecks s n d = none) :
      Commits s i w1 (pendingWrites s.outMask.toNat s.outCur.toNat
        (matchBytes s.outMem s.outMask.toNat s.outCur.toNat d n)) w1 n
  | stores {n : Nat} {bs : List Byte} {w : Work} (ho : literalOperand s.format i = some n)
      (hc : literalChecks s n = none) (hb : takeBytes s.inMem (decodeEnv s) n (alignWork w1) = .ok (bs, w)) :
      Commits s i w1 (pendingWrites s.outMask.toNat s.outCur.toNat bs) w n

/-- The state in which a command has been taken up. -/
def taken (s : State) : State := { s with cmd := 0 }

/-- Everything that a step can do. -/
inductive StepCase (s : State) : State → Prop where
  /-- No command, or a reserved one (spec R59, R138). -/
  | ignored (ha : s.activity = .idle) (hc : s.cmd = 0 ∨ s.cmd = 3) : StepCase s (taken s)
  /-- INIT, whose fit check fails (spec R71). -/
  | initTruncated (ha : s.activity = .idle) (hc : s.cmd = 1) : StepCase s (failedInit .headerTruncated (taken s))
  /-- INIT, on to the header (spec R70). -/
  | initBegun (ha : s.activity = .idle) (hc : s.cmd = 1) (hl : s.arg1.toNat < Config.totalLenBound)
      (hf : headerEnd s ≤ s.arg1.toNat) : StepCase s (beginInit (taken s))
  /-- DECODE outside `Active` (spec R77). -/
  | decodeRejected (ha : s.activity = .idle) (hc : s.cmd = 2) (st : Status) : StepCase s { taken s with status := st }
  /-- DECODE enters its loop (spec R77). -/
  | decodeEntered (ha : s.activity = .idle) (hc : s.cmd = 2) (hp : s.phase = .active) :
      StepCase s (enterDecode (taken s))
  /-- The header fails (spec R71, R73, R75, R76). -/
  | headerFailed (ha : s.activity = .init) {st : Status} (hst : st ≠ .ok) : StepCase s (failedInit st s)
  /-- The header opens a session (spec R75, R76). -/
  | opened (ha : s.activity = .init) (e : BitVec 6) (fr : BitVec 63) {a : BitVec 6} (b : BitVec 6) {tr : Option Trail}
      (hk : headerChecks a tr s = none) (ht : TrailPlaced a tr) : StepCase s (openSession e fr a b tr s)
  /-- A test of the loop stops the DECODE (spec R78). -/
  | loopStopped (ha : s.activity = .decode) {st : Status} (hl : loopTest s = some st) : StepCase s (stopLoop st s)
  /-- CONT moves the working copy over a boundary (spec R110, R111). -/
  | crossed (ha : s.activity = .decode) (hl : loopTest s = none) (hb : onBoundary (decodeEnv s) (copyWork s) = true)
      {v : Nat} {w : Work} (hk : contChecks (decodeEnv s) (copyWork s) = none)
      (hv : contApply (decodeEnv s) v (copyWork s) = .ok w) :
      StepCase s { s with work := w, fsm := .readSymbol, activity := .symbol }
  /-- The symbol step fails (spec R79, R130). -/
  | symbolFailed (hs : InSymbol s) (st : Status) : StepCase s (failedStep st s)
  /-- The symbol commits (spec R89). -/
  | committed {w0 w1 w : Work} {i : Instr} {s' : State} {p : List (Nat × Byte)} {n : Nat} (hw : ReadsFrom s w0)
      (hf : fetch s = .run i s') (hr : runParse s.inMem (decodeEnv s) (symbolParse s.format) w0 = .ok (i, w1))
      (hc : Commits s i w1 p w n) : StepCase s (commitSymbol p w n s)

/-- A command taken up at a boundary. -/
theorem stepCase_of_idle {s t : State} (ha : s.activity = .idle) (h : step s = .next t) : StepCase s t := by
  have hc : s.cmd = 1 ∨ s.cmd = 2 ∨ s.cmd = 0 ∨ s.cmd = 3 := by
    generalize s.cmd = c
    revert c
    decide
  rcases hc with hc | hc | hc
  · rw [step_of_run (fetch_idle_init ha hc)] at h
    change execInit (taken s) = .next t at h
    rcases execInit_eq (taken s) with ⟨-, hx⟩ | ⟨-, -, hx⟩ | ⟨hl, hf, hx⟩ <;> rw [hx] at h
    · contradiction
    · cases h; exact .initTruncated ha hc
    · cases h; exact .initBegun ha hc hl hf
  · rw [step_of_run (fetch_idle_decode ha hc)] at h
    change execDecode (taken s) = .next t at h
    unfold execDecode at h
    split at h <;> cases h
    · exact .decodeRejected ha hc _
    · exact .decodeRejected ha hc _
    · exact .decodeRejected ha hc _
    · rename_i hp; exact .decodeEntered ha hc hp
  · rw [step_of_stop (fetch_idle_none ha hc)] at h
    cases h; exact .ignored ha hc

/-- The header of an INIT. -/
theorem stepCase_of_init {s t : State} (ha : s.activity = .init) (h : step s = .next t) : StepCase s t := by
  rcases fetchHeader_cases s with ⟨st, hp, hf⟩ | ⟨i, w, hp, hf⟩
  · rw [step_of_stop ((fetch_init ha).trans hf), raiseStatus_eq_failedInit st ha] at h
    cases h
    refine .headerFailed ha ?_
    rintro rfl
    simpa [ReadStatus, headerEnv] using runParse_status hp
  · obtain ⟨e, fr, a, b, tr, rfl, ht⟩ := gives_headerParse.runParse hp
    rw [step_of_run ((fetch_init ha).trans hf)] at h
    change execHdr e fr a b tr (setWork w s) = .next t at h
    rcases execHdr_eq e fr a b tr (setWork w s) with ⟨st, hk, hx⟩ | ⟨hk, hx⟩ <;> rw [hx] at h <;> cases h
    · rw [raiseStatus_eq_failedInit (s := setWork w s) st ha, headerChecks_eq_some hk]
      exact .headerFailed ha (by simp)
    · exact .opened ha e fr b hk ht

/-- The fields of a symbol and its meaning, from the state `s1` that holds the working copy. -/
theorem stepCase_of_fetchSymbol {s s1 t : State} {w0 : Work} {f : Fsm} (hw : ReadsFrom s w0)
    (hs1 : s1 = { s with work := w0, fsm := f }) (hf : fetch s = fetchSymbol s1) (h : step s = .next t) :
    StepCase s t := by
  have hinit : s.activity ≠ .init := by rcases hw.inSymbol.activity with h | h <;> simp [h]
  subst hs1
  rcases fetchSymbol_cases { s with work := w0, fsm := f } with ⟨st, -, hx⟩ | ⟨i, w1, hp, hx⟩ <;> rw [hx] at hf
  · rw [step_of_stop hf, raiseStatus_eq_failedStep _ (by exact hinit)] at h
    cases h; exact .symbolFailed hw.inSymbol st
  · rw [step_of_run hf] at h
    generalize hs' : ({ s with work := w1, fsm := fsmRun f (readEvents i) } : State) = s' at *
    have hraise : ∀ st, raiseStatus st s' = failedStep st s := by
      intro st
      subst hs'
      exact raiseStatus_eq_failedStep st hinit
    rcases operands_of_symbol s'.format ((gives_symbolParse _).runParse hp) with ⟨n, d, ho⟩ | ⟨n, ho⟩
    · rw [exec_of_matchOperands ho] at h
      rcases copyMatch_eq n d s' with ⟨st, -, hy⟩ | ⟨hc, hy⟩ <;> rw [hy] at h <;> cases h
      · rw [hraise]; exact .symbolFailed hw.inSymbol st
      · subst hs'; exact .committed hw hf hp (.copies ho hc)
    · rw [exec_of_literalOperand ho] at h
      rcases copyLiteralRun_eq n s' with ⟨st, -, hy⟩ | ⟨-, st, -, hy⟩ | ⟨hc, bs, w, hb, hy⟩ <;> rw [hy] at h <;> cases h
      · rw [hraise]; exact .symbolFailed hw.inSymbol st
      · rw [hraise]; exact .symbolFailed hw.inSymbol st
      · subst hs'; exact .committed hw hf hp (.stores ho hc hb)

/-- CONT before the first bit of a symbol. -/
theorem stepCase_of_fetchCont {s t : State} (ha : s.activity = .decode) (hl : loopTest s = none)
    (hb : onBoundary (decodeEnv s) (copyWork s) = true) (hf : fetch s = fetchCont (beginSymbol s))
    (h : step s = .next t) : StepCase s t := by
  have hraise : ∀ st, raiseStatus st (beginSymbol s) = failedStep st s :=
    fun st => raiseStatus_eq_failedStep st (by simp [ha])
  rcases fetchCont_cases (beginSymbol s) with ⟨st, -, hx⟩ | ⟨hk, hx⟩ <;> rw [hx] at hf
  · rw [step_of_stop hf, hraise] at h
    cases h; exact .symbolFailed (.inl ⟨ha, hl⟩) st
  · rw [step_of_run hf] at h
    obtain ⟨v, hv⟩ : ∃ v, decodeCont (contBytes (beginSymbol s).inMem (decodeEnv (beginSymbol s)) (beginSymbol s).work)
        = .cont v := ⟨_, rfl⟩
    rw [hv] at h
    change execCont v (beginSymbol s) = .next t at h
    rcases execCont_eq v (beginSymbol s) with ⟨st, -, hy⟩ | ⟨w, hw, hy⟩ <;> rw [hy] at h
    · rw [hraise] at h
      cases h; exact .symbolFailed (.inl ⟨ha, hl⟩) st
    · cases h; exact .crossed ha hl hb hk hw

/-- A turn of the loop. -/
theorem stepCase_of_decode {s t : State} (ha : s.activity = .decode) (h : step s = .next t) : StepCase s t := by
  have hf := fetch_decode ha
  rcases fetchTurn_cases s with ⟨st, hl, hx⟩ | ⟨hl, hb, hx⟩ | ⟨hl, hb, hx⟩ <;> rw [hx] at hf
  · rw [step_of_stop hf] at h
    cases h; exact .loopStopped ha hl
  · exact stepCase_of_fetchCont ha hl hb hf h
  · exact stepCase_of_fetchSymbol (.turn ha hl hb) rfl hf h

/-- Every step is one of the cases. -/
theorem stepCase_of_step {s t : State} (h : step s = .next t) : StepCase s t := by
  cases ha : s.activity with
  | idle => exact stepCase_of_idle ha h
  | init => exact stepCase_of_init ha h
  | decode => exact stepCase_of_decode ha h
  | symbol => exact stepCase_of_fetchSymbol (.crossed ha) rfl (fetch_symbol ha) h

end Sys2Proof.Machine

/-! Statements about single steps: what a step leaves alone, what moves `PHASE` and `OUT_CUR`, and the lap of the output
window (O19, O35, O42, O43, O44, O46). -/

namespace Sys2Proof.Machine

/-- Settles O19, from what a fetch does at a command boundary. -/
theorem stepRunsCommand : Obligations.StepRunsCommand := fun _ ha =>
  ⟨fun hc => step_of_run (fetch_idle_init ha hc), fun hc => step_of_run (fetch_idle_decode ha hc),
    fun hc => step_of_stop (fetch_idle_none ha hc)⟩

/-! ### Laps of a window -/

/-- The last position of the lap of `2^k` bytes that holds `c`, plus one, is where the next lap begins (spec R18, R75). -/
theorem or_mask_add_one (c k : Nat) : (c ||| (2 ^ k - 1)) + 1 = (c / 2 ^ k + 1) * 2 ^ k := by
  have hpos : 0 < 2 ^ k := Nat.two_pow_pos k
  have hor : (c ||| (2 ^ k - 1)) = 2 ^ k * (c / 2 ^ k) + (2 ^ k - 1) := by
    rw [Nat.two_pow_add_eq_or_of_lt (by omega)]
    refine Nat.eq_of_testBit_eq fun i => ?_
    rw [Nat.testBit_or, Nat.testBit_or, Nat.testBit_two_pow_mul, Nat.testBit_two_pow_sub_one, Nat.testBit_div_two_pow]
    by_cases hi : i < k
    · simp [hi]
    · simp [hi, show k ≤ i by omega]
  rw [hor, Nat.add_mul, Nat.mul_comm]; omega

/-- The mask of a window of `2^k` bytes is not that of an unconstrained one. -/
theorem two_pow_sub_one_ne_all1 {k : Nat} (hk : k ≤ 62) : 2 ^ k - 1 ≠ all1 := by
  have : 2 ^ k ≤ 2 ^ 62 := Nat.pow_le_pow_right (by omega) hk
  unfold all1; omega

/-- Settles O35: the lap of the output window, by `or_mask_add_one`. -/
theorem reqOutIsLapEnd : Obligations.ReqOutIsLapEnd := by
  refine fun s => ⟨fun h => by simp [reqOut, h], fun h => by simp [reqOut, h], fun k hk h => ?_⟩
  rw [reqOut, h, if_neg (two_pow_sub_one_ne_all1 hk), or_mask_add_one]

/-! ### What a step leaves alone -/

/-- Settles O44: no outcome of a step touches what the host owns. -/
theorem stepLeavesHostData : Obligations.StepLeavesHostData := by
  intro s t h
  cases stepCase_of_step h <;> exact ⟨rfl, rfl, rfl, rfl, rfl, rfl, rfl, rfl, rfl⟩

/-- Settles O43: of the outcomes of a step only `opened` writes the configuration. -/
theorem sessionConstant : Obligations.SessionConstant := by
  intro s t h
  cases stepCase_of_step h
  case opened ha e fr a b tr hk ht => exact .inl ⟨ha, rfl, rfl⟩
  all_goals exact .inr ⟨rfl, rfl, rfl, rfl, rfl, rfl, rfl, rfl, rfl, rfl, rfl⟩

/-! ### The phase -/

/-- A DECODE in progress is in phase `Active`. -/
theorem Inv.phase_of_decoding {s : State} (h : Inv s) (ha : s.activity = .decode ∨ s.activity = .symbol) :
    s.phase = .active := by
  have hact := h.activity
  unfold ActivityInv at hact
  rcases ha with ha | ha <;> rw [ha] at hact
  · exact hact.2.1.phase
  · exact hact.2.1.phase

/-- An INIT in progress has passed its fit check (spec R71). -/
theorem Inv.header {s : State} (h : Inv s) (ha : s.activity = .init) : HeaderInv s := by
  have hact := h.activity
  unfold ActivityInv at hact
  rw [ha] at hact
  exact hact.2

/-- A loop whose tests pass has output left to produce. -/
theorem outCur_ne_of_loopTest {s : State} (h : loopTest s = none) : s.outCur ≠ s.decompSize := (loopTest_eq_none.1 h).1

/-- Where the output is complete the loop stops with `Done` (spec R78). -/
theorem loopTest_of_complete {s : State} (h : s.outCur = s.decompSize) : loopTest s = some .done := by simp [loopTest, h]

/-- The moves of `PHASE` by the steps of a state (spec R20), one clause per event and the converse. -/
structure PhaseStep (s t : State) : Prop where
  init : s.activity = .idle → s.cmd = 1 → t.phase = .noSession
  initFails : s.activity = .init → t.status ≠ .ok → t.phase = .noSession
  initOpens : s.activity = .init → t.status = .ok → t.phase = .active
  done : s.activity = .decode → s.outCur = s.decompSize → t.phase = .done ∧ t.status = .done
  failed : s.activity = .decode ∨ s.activity = .symbol → t.activity = .idle → t.status = .corruptStream →
    t.phase = .failed
  onlyBy : t.phase ≠ s.phase →
    (t.phase = .noSession ∧ s.activity = .idle ∧ s.cmd = 1) ∨
    (s.phase = .noSession ∧ t.phase = .active ∧ s.activity = .init ∧ t.status = .ok) ∨
    (s.phase = .active ∧ t.phase = .done ∧ s.activity = .decode ∧ s.outCur = s.decompSize ∧ t.status = .done) ∨
    (s.phase = .active ∧ t.phase = .failed ∧ s.activity ≠ .idle ∧ s.activity ≠ .init ∧ t.status = .corruptStream)

/-- A symbol step that goes on leaves the phase. -/
theorem PhaseStep.of_goes_on {s t : State} (hs : InSymbol s) (hp : t.phase = s.phase) (ha : t.activity ≠ .idle) :
    PhaseStep s t := by
  rcases hs with ⟨hd, hl⟩ | hd
  · exact ⟨by simp [hd], by simp [hd], by simp [hd], fun _ hc => absurd hc (outCur_ne_of_loopTest hl),
      fun _ h => absurd h ha, fun h => absurd hp h⟩
  · exact ⟨by simp [hd], by simp [hd], by simp [hd], by simp [hd], fun _ h => absurd h ha, fun h => absurd hp h⟩

/-- A symbol step that fails (spec R79). -/
theorem PhaseStep.of_symbolFailed {s : State} (hinv : Inv s) (hs : InSymbol s) (st : Status) :
    PhaseStep s (failedStep st s) := by
  have hp := hinv.phase_of_decoding hs.activity
  have hidle : s.activity ≠ .idle ∧ s.activity ≠ .init := by rcases hs.activity with h | h <;> simp [h]
  refine ⟨fun h => absurd h hidle.1, fun h => absurd h hidle.2, fun h => absurd h hidle.2, fun hd hc => ?_,
    fun _ _ hst => if_pos hst, fun hne => ?_⟩
  · rcases hs with ⟨-, hl⟩ | hs
    · exact absurd hc (outCur_ne_of_loopTest hl)
    · rw [hd] at hs; contradiction
  · by_cases hst : st = .corruptStream
    · exact .inr (.inr (.inr ⟨hp, if_pos hst, hidle.1, hidle.2, hst⟩))
    · exact absurd (if_neg hst) hne

/-- A DECODE that a test of its loop stops (spec R78). -/
theorem PhaseStep.of_loopStopped {s : State} (hinv : Inv s) (ha : s.activity = .decode) {st : Status}
    (hl : loopTest s = some st) : PhaseStep s (stopLoop st s) := by
  have hp := hinv.phase_of_decoding (.inl ha)
  refine ⟨by simp [ha], by simp [ha], by simp [ha], fun _ hc => ?_, fun _ _ hst => ?_, fun hne => ?_⟩
  · rw [loopTest_of_complete hc] at hl
    cases hl; exact ⟨rfl, rfl⟩
  · rcases loopTest_eq_some hl with ⟨rfl, -⟩ | ⟨rfl, -⟩ | ⟨rfl, -⟩ <;> simp at hst
  · rcases loopTest_eq_some hl with ⟨rfl, hc⟩ | ⟨rfl, -⟩ | ⟨rfl, -⟩
    · exact .inr (.inr (.inl ⟨hp, rfl, ha, hc, rfl⟩))
    · exact absurd rfl hne
    · exact absurd rfl hne

/-- Every step moves the phase by one of the events. -/
theorem phaseStep_of_step {s t : State} (hinv : Inv s) (h : step s = .next t) : PhaseStep s t := by
  cases stepCase_of_step h with
  | ignored ha hc =>
    have : s.cmd ≠ 1 := by rcases hc with hc | hc <;> simp [hc]
    exact ⟨fun _ h => absurd h this, by simp [ha], by simp [ha], by simp [ha], by simp [ha], fun h => absurd rfl h⟩
  | initTruncated ha hc =>
    exact ⟨fun _ _ => rfl, by simp [ha], by simp [ha], by simp [ha], by simp [ha], fun _ => .inl ⟨rfl, ha, hc⟩⟩
  | initBegun ha hc hl hf =>
    exact ⟨fun _ _ => rfl, by simp [ha], by simp [ha], by simp [ha], by simp [ha], fun _ => .inl ⟨rfl, ha, hc⟩⟩
  | decodeRejected ha hc st =>
    exact ⟨by simp [hc], by simp [ha], by simp [ha], by simp [ha], by simp [ha], fun h => absurd rfl h⟩
  | decodeEntered ha hc hp =>
    exact ⟨by simp [hc], by simp [ha], by simp [ha], by simp [ha], by simp [ha], fun h => absurd rfl h⟩
  | headerFailed ha hst =>
    exact ⟨by simp [ha], fun _ _ => rfl, fun _ h => absurd h hst, by simp [ha], by simp [ha],
      fun h => absurd (hinv.header ha).phase.symm h⟩
  | opened ha e fr b hk ht =>
    exact ⟨by simp [ha], fun _ h => absurd rfl h, fun _ _ => rfl, by simp [ha], by simp [ha],
      fun _ => .inr (.inl ⟨(hinv.header ha).phase, rfl, ha, rfl⟩)⟩
  | loopStopped ha hl => exact .of_loopStopped hinv ha hl
  | crossed ha hl hb hk hv => exact .of_goes_on (.inl ⟨ha, hl⟩) rfl (by simp)
  | symbolFailed hs st => exact .of_symbolFailed hinv hs st
  | committed hw hf hr hc => exact .of_goes_on hw.inSymbol rfl (by simp)

/-- Settles O42, from `PhaseStep` and the lemmas on the host's accesses. -/
theorem phaseMoves : Obligations.PhaseMoves := by
  refine ⟨by decide, fun s t h => ?_, fun s t h => ?_, fun s t hinv h => ?_⟩
  · rw [hostReset_eq_next h]; rfl
  · rcases h with ⟨index, v, h⟩ | ⟨index, v, h⟩ | ⟨offset, b, h⟩
    · obtain ⟨-, c, a0, a1, a2, a3, ob, rfl⟩ := hostWrite_eq_next h; rfl
    · obtain ⟨-, n, rfl⟩ := hostRead_eq_next h; rfl
    · rw [(hostStore_eq_next h).2]
  · obtain ⟨h1, h2, h3, h4, h5, h6⟩ := phaseStep_of_step hinv h
    exact ⟨h1, h2, h3, h4, h5, h6⟩

/-! ### The output cursor -/

/-- A symbol that commits stays within the declared size (spec R98). -/
theorem Commits.size {s : State} {i : Instr} {w1 w : Work} {p : List (Nat × Byte)} {n : Nat} (h : Commits s i w1 p w n) :
    s.outCur.toNat + n ≤ s.decompSize.toNat := by
  cases h with
  | copies _ hc => exact (checkLength_eq_none.1 (matchChecks_eq_none.1 hc).1).1
  | stores _ hc _ => exact (checkLength_eq_none.1 (literalChecks_eq_none.1 hc).1).1

/-- A value within a register is what the register then holds. -/
theorem toNat_ofNat_of_le {n : Nat} {b : Word} (h : n ≤ b.toNat) : (BitVec.ofNat 64 n).toNat = n := by
  have := b.isLt
  rw [BitVec.toNat_ofNat, Nat.mod_eq_of_lt (by omega)]

/-- Settles O46: of the outcomes of a step only `opened` and `committed` move `OUT_CUR`. -/
theorem outCursorMoves : Obligations.OutCursorMoves := by
  intro s t hinv h
  cases stepCase_of_step h with
  | ignored ha _ => simp [ha, taken]
  | initTruncated ha _ => simp [ha, taken, failedInit]
  | initBegun ha _ _ _ => simp [ha, taken]
  | decodeRejected ha _ _ => simp [ha, taken]
  | decodeEntered ha _ _ => simp [ha, taken]
  | headerFailed ha hst => simp [ha, failedInit, hst]
  | opened ha _ _ _ _ _ => simp [ha]
  | loopStopped ha _ => simp [ha]
  | crossed ha _ _ _ _ => simp [ha]
  | symbolFailed hs st => rcases hs.activity with ha | ha <;> simp [ha, failedStep]
  | @committed w0 w1 w i s' p n hw hf hr hc =>
    have hlen : (commitSymbol p w n s).outCur.toNat = s.outCur.toNat + n := toNat_ofNat_of_le hc.size
    have hidle : s.activity ≠ .idle ∧ s.activity ≠ .init := by rcases hw.inSymbol.activity with h | h <;> simp [h]
    refine ⟨fun h => absurd h hidle.1, fun h => absurd h hidle.2, fun _ => .inr ⟨rfl, i, s', hf, ?_⟩⟩
    cases hc with
    | copies ho _ => exact .inl ⟨n, _, ho, hlen⟩
    | stores ho _ _ => exact .inr ⟨n, ho, hlen⟩

end Sys2Proof.Machine

/-! The invariant (O37, O38, O39): it holds at reset, and every step and every access of the host keeps it. -/

namespace Sys2Proof.Machine

/-! ### What keeps a session -/

/-- The registers that `SessionInv` speaks of. -/
def sessionRegs (s : State) :=
  (s.totalLen, s.hdrOff, s.dataStart, s.decompSize, s.inMask, s.outMask, s.invMaskIn, s.invMaskOut, s.lenBytes, s.chunked,
    s.inByte, s.inBitoff, s.outCur, s.reqIn, s.nextBnd)

/-- `SessionInv` depends on the session's registers alone. -/
theorem SessionInv.congr {s t : State} (h : SessionInv s) (e : sessionRegs t = sessionRegs s) : SessionInv t := by
  simp only [sessionRegs, Prod.mk.injEq] at e
  obtain ⟨e1, e2, e3, e4, e5, e6, e7, e8, e9, e10, e11, e12, e13, e14, e15⟩ := e
  obtain ⟨h1, h2, h3, h4, h5, h6, h7, h8, h9, h10, h11, h12, hw⟩ := h
  constructor
  case window =>
    rw [e10]
    split_ifs at hw ⊢
    · obtain ⟨c1, c2, c3, c4, c5, c6, c7, c8, c9⟩ := hw
      constructor
      case cursor_aligned => rwa [e11, e12, e15]
      all_goals simp only [*]
    · obtain ⟨c1, c2, c3, c4⟩ := hw
      constructor <;> simp only [*]
  case cursor_bit => rwa [e1, e11, e12]
  all_goals simp only [*]

/-- What a transition keeps that leaves the memories, the ROMs and the session as they are. -/
theorem Inv.of_same {s t : State} (h : Inv s) (hin : t.inMem = s.inMem) (hout : t.outMem = s.outMem)
    (hrom : t.shortRom = s.shortRom ∧ t.longRom = s.longRom) (hn : t.nbits = 0) (hf : t.fsm = .readSymbol)
    (hs : t.phase ≠ .noSession → s.phase ≠ .noSession ∧ sessionRegs t = sessionRegs s) (ha : ActivityInv t) : Inv t where
  inMem := hin ▸ h.inMem
  outMem := hout ▸ h.outMem
  roms := by
    have hr := h.roms
    unfold Format.romWf State.format at hr ⊢
    rwa [hrom.1, hrom.2]
  nbits := hn
  fsm := hf
  session hp := (h.session (hs hp).1).congr (hs hp).2
  activity := ha

/-! ### What the invariant says, by activity -/

theorem Inv.quiet {s : State} (h : Inv s) (ha : s.activity = .idle) : QuietInv s := by
  have hact := h.activity
  unfold ActivityInv at hact
  rwa [ha] at hact

/-- A DECODE in progress: no command is latched, its latches hold. -/
theorem Inv.decoding {s : State} (h : Inv s) (ha : s.activity = .decode ∨ s.activity = .symbol) :
    s.cmd = 0 ∧ LatchInv s := by
  have hact := h.activity
  unfold ActivityInv at hact
  rcases ha with ha | ha <;> rw [ha] at hact
  · exact ⟨hact.1, hact.2.1⟩
  · exact ⟨hact.1, hact.2.1⟩

theorem Inv.crossed {s : State} (h : Inv s) (ha : s.activity = .symbol) : CrossedInv s := by
  have hact := h.activity
  unfold ActivityInv at hact
  rw [ha] at hact
  exact hact.2.2

/-- A DECODE in progress has a session. -/
theorem Inv.session_of_decoding {s : State} (h : Inv s) (ha : s.activity = .decode ∨ s.activity = .symbol) :
    SessionInv s := h.session (by simp [h.phase_of_decoding ha])

theorem SessionInv.chunk {s : State} (h : SessionInv s) (hc : s.chunked = true) : ChunkInv s := by
  have := h.window; rwa [if_pos hc] at this

theorem SessionInv.linear {s : State} (h : SessionInv s) (hc : s.chunked = false) : LinearInv s := by
  have := h.window; rwa [if_neg (by simp [hc])] at this

/-! ### Commands end and begin -/

/-- A command that ends without a session. -/
theorem Inv.failedInit {s : State} (h : Inv s) (st : Status) : Inv (failedInit st s) :=
  h.of_same rfl rfl ⟨rfl, rfl⟩ rfl rfl (fun hp => absurd rfl hp) ⟨rfl, rfl, rfl⟩

/-- A DECODE that ends by a failed symbol step. -/
theorem Inv.failedStep {s : State} (h : Inv s) (ha : s.activity = .decode ∨ s.activity = .symbol) (st : Status) :
    Inv (failedStep st s) :=
  h.of_same rfl rfl ⟨rfl, rfl⟩ rfl rfl (fun _ => ⟨by simp [h.phase_of_decoding ha], rfl⟩) ⟨rfl, rfl, rfl⟩

/-- A DECODE that ends by a test of its loop. -/
theorem Inv.stopLoop {s : State} (h : Inv s) (ha : s.activity = .decode) (st : Status) : Inv (stopLoop st s) :=
  h.of_same rfl rfl ⟨rfl, rfl⟩ h.nbits h.fsm (fun _ => ⟨by simp [h.phase_of_decoding (.inl ha)], rfl⟩) ⟨rfl, rfl, rfl⟩

/-- A command taken up, or a status set, between commands. -/
theorem Inv.taken {s : State} (h : Inv s) (ha : s.activity = .idle) (st : Status) :
    Inv { taken s with status := st } := by
  obtain ⟨q1, q2, q3⟩ := h.quiet ha
  refine h.of_same rfl rfl ⟨rfl, rfl⟩ h.nbits h.fsm (fun hp => ⟨hp, rfl⟩) ?_
  simpa only [ActivityInv, Machine.taken, ha] using ⟨q1, q2, q3⟩

/-- INIT passes its fit check (spec R71). -/
theorem Inv.beginInit {s : State} (h : Inv s) (ha : s.activity = .idle) (hl : s.arg1.toNat < Config.totalLenBound)
    (hf : headerEnd s ≤ s.arg1.toNat) : Inv (beginInit (Machine.taken s)) := by
  obtain ⟨-, q2, q3⟩ := h.quiet ha
  exact h.of_same rfl rfl ⟨rfl, rfl⟩ h.nbits rfl (fun hp => absurd rfl hp) ⟨rfl, rfl, hl, hf, rfl, q2, q3⟩

/-- The smaller of two registers is what a register then holds. -/
theorem toNat_ofNat_min_le (a b : Word) : (BitVec.ofNat 64 (min a.toNat b.toNat)).toNat ≤ b.toNat := by
  rw [toNat_ofNat_of_le (Nat.min_le_right a.toNat b.toNat)]
  exact Nat.min_le_right _ _

/-- DECODE latches its arguments (spec R19, R77). -/
theorem Inv.enterDecode {s : State} (h : Inv s) (ha : s.activity = .idle) (hp : s.phase = .active) :
    Inv (enterDecode (Machine.taken s)) :=
  h.of_same rfl rfl ⟨rfl, rfl⟩ rfl h.fsm (fun hp => ⟨hp, rfl⟩)
    ⟨rfl, ⟨hp, toNat_ofNat_min_le _ _, toNat_ofNat_min_le _ _⟩, (h.quiet ha).work⟩

/-! ### A header opens a session -/

/-- The mask of a window code as a register holds it. -/
theorem toNat_windowMask (code : BitVec 6) : (BitVec.ofNat 64 (windowMask code)).toNat = windowMask code := by
  have := code.isLt
  have : 2 ^ code.toNat ≤ 2 ^ 63 := Nat.pow_le_pow_right (by omega) (by omega)
  rw [BitVec.toNat_ofNat, Nat.mod_eq_of_lt]
  unfold windowMask all1; split <;> omega

/-- The mask of a constrained window code. -/
theorem windowMask_constrained {code : BitVec 6} (h : code.toNat ≠ Config.winUnconstrained) :
    code.toNat ≤ 62 ∧ windowMask code = 2 ^ code.toNat - 1 := by
  have := code.isLt
  exact ⟨by unfold Config.winUnconstrained at h; omega, if_neg h⟩

/-- Every window code has a window mask (spec R17). -/
theorem isWindowMask_windowMask (code : BitVec 6) : IsWindowMask (windowMask code) := by
  by_cases h : code.toNat = Config.winUnconstrained
  · exact .inl (if_pos h)
  · exact .inr ⟨code.toNat, windowMask_constrained h⟩

/-- The declared size fits its register and is not 0 (spec R72). -/
theorem toNat_decompSizeOf (e : BitVec 6) (fr : BitVec 63) :
    (BitVec.ofNat 64 (decompSizeOf e fr)).toNat = decompSizeOf e fr ∧ 1 ≤ decompSizeOf e fr := by
  have he : 2 ^ e.toNat ≤ 2 ^ 63 := Nat.pow_le_pow_right (by omega) (by have := e.isLt; omega)
  have hpos : 0 < 2 ^ e.toNat := Nat.two_pow_pos _
  have := fr.isLt
  unfold decompSizeOf
  exact ⟨by rw [BitVec.toNat_ofNat, Nat.mod_eq_of_lt (by omega)], by omega⟩

/-- The first boundary of a session with a constrained input window (spec R75): the next multiple of the window's size. -/
theorem initNextBnd_constrained {a : BitVec 6} {s : State} (h : a.toNat ≠ Config.winUnconstrained) :
    2 ^ a.toNat ∣ initNextBnd a s ∧ headerEnd s < initNextBnd a s ∧ initNextBnd a s ≤ headerEnd s + 2 ^ a.toNat := by
  have hb : initNextBnd a s = (headerEnd s / 2 ^ a.toNat + 1) * 2 ^ a.toNat := by
    rw [initNextBnd, if_neg h, (windowMask_constrained h).2, or_mask_add_one]
  have hdiv := Nat.div_add_mod' (headerEnd s) (2 ^ a.toNat)
  have hmod := Nat.mod_lt (headerEnd s) (Nat.two_pow_pos a.toNat)
  refine ⟨hb ▸ Nat.dvd_mul_left _ _, ?_, ?_⟩ <;> rw [hb, Nat.add_mul] <;> omega

section
variable {s : State} {e : BitVec 6} {fr : BitVec 63} {a b : BitVec 6} {tr : Option Trail}

/-- The chunk registers of a session that a header opens (spec R75). -/
theorem chunkInv_openSession (h : HeaderInv s) (hc : a.toNat ≠ Config.winUnconstrained)
    (hk : headerChecks a tr s = none) (ht : TrailPlaced a tr) : ChunkInv (openSession e fr a b tr s) := by
  obtain ⟨hmin, hfit⟩ := headerChecks_eq_none.1 hk
  have hreq : initReqIn a tr s ≤ min (initNextBnd a s) s.arg1.toNat := hfit hc
  obtain ⟨hdvd, hlt, hnear⟩ := initNextBnd_constrained (s := s) hc
  obtain ⟨h62, hmask⟩ := windowMask_constrained hc
  have hpow : 2 ^ a.toNat ≤ 2 ^ 62 := Nat.pow_le_pow_right (by omega) h62
  have hpos : 0 < 2 ^ a.toNat := Nat.two_pow_pos _
  have hbound := h.totalLen_lt
  have hfits := h.fits
  unfold Config.totalLenBound at hbound
  have hstart : (openSession e fr a b tr s).dataStart.toNat = headerEnd s := toNat_ofNat_of_le hfits
  have hcur : (openSession e fr a b tr s).inByte.toNat = headerEnd s := hstart
  have hbnd : (openSession e fr a b tr s).nextBnd.toNat = initNextBnd a s := by
    rw [openSession_nextBnd, BitVec.toNat_ofNat, Nat.mod_eq_of_lt (by omega)]
  have hin : (openSession e fr a b tr s).inMask.toNat = 2 ^ a.toNat - 1 := (toNat_windowMask a).trans hmask
  have hrq : (openSession e fr a b tr s).reqIn.toNat = initReqIn a tr s :=
    toNat_ofNat_of_le (le_trans hreq (Nat.min_le_right _ _))
  obtain ⟨l1, l8⟩ : 1 ≤ (openSession e fr a b tr s).lenBytes.toNat ∧ (openSession e fr a b tr s).lenBytes.toNat ≤ 8 := by
    cases tr with
    | none => exact absurd rfl (ht.present hmin hc)
    | some tr => have := tr.lenb.isLt; simp [lenBytesOf]; omega
  refine ⟨⟨a.toNat, hmin, h62, hin⟩, l1, l8, by omega, fun heq => absurd (congrArg BitVec.toNat heq) (by omega), ?_, by omega,
    by omega, by omega⟩
  rw [hin, hbnd, Nat.sub_add_cancel hpos]
  exact hdvd

/-- The registers of a session with an unconstrained input window that a header opens (spec R75, R115). -/
theorem linearInv_openSession (hc : a.toNat = Config.winUnconstrained) (ht : TrailPlaced a tr) :
    LinearInv (openSession e fr a b tr s) where
  mask := (toNat_windowMask a).trans (if_pos hc)
  lenBytes := by rw [openSession_lenBytes, ht.absent hc]; rfl
  nextBnd := by rw [openSession_nextBnd, initNextBnd, if_pos hc]; rfl
  reqIn := by rw [openSession_reqIn, initReqIn, if_pos hc]; simp

/-- The first chunk lies between the end of the header and the end of the frame (spec R75). -/
theorem initReqIn_bounds (h : HeaderInv s) (hk : headerChecks a tr s = none) :
    headerEnd s ≤ initReqIn a tr s ∧ initReqIn a tr s ≤ s.arg1.toNat := by
  have hfits := h.fits
  by_cases hc : a.toNat = Config.winUnconstrained
  · rw [initReqIn, if_pos hc]; exact ⟨hfits, le_rfl⟩
  · exact ⟨by rw [initReqIn, if_neg hc]; omega,
      le_trans ((headerChecks_eq_none.1 hk).2 hc) (Nat.min_le_right _ _)⟩

/-- A header opens a session whose registers are as R11 to R17 say. -/
theorem sessionInv_openSession (h : HeaderInv s) (hk : headerChecks a tr s = none) (ht : TrailPlaced a tr) :
    SessionInv (openSession e fr a b tr s) := by
  obtain ⟨hge, hle⟩ := initReqIn_bounds h hk
  obtain ⟨hsize, hpos⟩ := toNat_decompSizeOf e fr
  have hstart : (BitVec.ofNat 64 (headerEnd s)).toNat = headerEnd s := toNat_ofNat_of_le h.fits
  have hrq : (BitVec.ofNat 64 (initReqIn a tr s)).toNat = initReqIn a tr s := toNat_ofNat_of_le hle
  constructor
  case window =>
    by_cases hc : a.toNat = Config.winUnconstrained
    · rw [if_neg (by simp [hc])]; exact linearInv_openSession hc ht
    · rw [if_pos (by simp [hc])]; exact chunkInv_openSession h hc hk ht
  case totalLen_lt => exact h.totalLen_lt
  case hdr_le => rw [openSession_dataStart, hstart]; exact Nat.le_add_right _ _
  case data_le => exact le_rfl
  case decomp_pos => rw [openSession_decompSize, hsize]; exact hpos
  case outMask => rw [openSession_outMask, toNat_windowMask]; exact isWindowMask_windowMask b
  case invMaskIn => rfl
  case invMaskOut => rfl
  case cursor_le => rw [openSession_inByte, hstart]; exact h.fits
  case cursor_bit => exact fun hb => absurd rfl hb
  case outCur_le => exact Nat.zero_le _
  case reqIn_ge => rw [openSession_dataStart, openSession_reqIn, hstart, hrq]; exact hge
  case reqIn_le => rw [openSession_reqIn, hrq]; exact hle

/-- A session opened keeps the invariant. -/
theorem Inv.openSession (h : Inv s) (ha : s.activity = .init) (hk : headerChecks a tr s = none) (ht : TrailPlaced a tr) :
    Inv (openSession e fr a b tr s) where
  inMem := h.inMem
  outMem := h.outMem
  roms := h.roms
  nbits := rfl
  fsm := rfl
  session _ := sessionInv_openSession (h.header ha) hk ht
  activity := ⟨rfl, rfl, rfl⟩

end

/-! ### The working copy of a symbol step -/

/-- The window of a session's input is at least as long as its stride, and the field is shorter (spec R12, R57). -/
theorem SessionInv.stride {s : State} (h : SessionInv s) : (decodeEnv s).stride = s.inMask.toNat + 1 := by
  rw [decodeEnv_stride, h.invMaskIn]

/-- The environment of a session. -/
theorem SessionInv.envInv {s : State} (h : SessionInv s) : EnvInv (decodeEnv s) := by
  refine ⟨fun hc => ?_⟩
  obtain ⟨⟨k, h4, -, hk⟩, l1, l8, -⟩ := h.chunk hc
  have : 2 ^ 4 ≤ 2 ^ k := Nat.pow_le_pow_right (by omega) h4
  rw [h.stride, decodeEnv_lenBytes]
  omega

/-- What a symbol step keeps of the boundary and the gate beside `ReaderInv`: without chunks they do not move, and they stay
behind the header. -/
structure BoundaryInv (s : State) (w : Work) : Prop where
  linear : s.chunked = false → w.nextBnd = s.nextBnd.toNat ∧ w.reqIn = s.reqIn.toNat
  reqIn : s.dataStart.toNat ≤ w.reqIn
  chunk : s.chunked = true → s.dataStart.toNat < w.nextBnd

/-- A fetch moves the boundary and the gate by a crossing or not at all. -/
theorem fetchByte_boundary {m : Memory} {e : Env} {w w' : Work} {b : Byte} (h : fetchByte m e w = .ok (b, w')) :
    (w'.nextBnd = w.nextBnd ∧ w'.reqIn = w.reqIn) ∨
      (e.chunked = true ∧ w.nextBnd ≤ w'.nextBnd ∧ w.nextBnd ≤ w'.reqIn) := by
  obtain ⟨hc, -, -⟩ := fetchByte_eq_ok.1 h
  unfold crossIfNeeded at hc
  split at hc
  case isTrue hon =>
    obtain ⟨-, v, hv⟩ := crossBoundary_eq_ok hc
    obtain ⟨-, rfl⟩ := contApply_eq_ok.1 hv
    simp only [onBoundary, Bool.and_eq_true] at hon
    exact .inr ⟨hon.1, by simp only; omega, by simp only; omega⟩
  case isFalse =>
    cases hc; exact .inl ⟨rfl, rfl⟩

/-- A fetch keeps `BoundaryInv`. -/
theorem BoundaryInv.fetch {s : State} {m : Memory} {w w' : Work} {b : Byte} (hw : BoundaryInv s w)
    (h : fetchByte m (decodeEnv s) w = .ok (b, w')) : BoundaryInv s w' := by
  obtain ⟨hl, hr, hc⟩ := hw
  rcases fetchByte_boundary h with ⟨hb, hq⟩ | ⟨hch, hb, hq⟩
  · exact ⟨by rwa [hb, hq], by rwa [hq], by rwa [hb]⟩
  · have := hc hch
    rw [decodeEnv_chunked] at hch
    exact ⟨by simp [hch], by omega, fun _ => by omega⟩

/-- Every read of a symbol step keeps `BoundaryInv`, which says nothing of the cursor itself. -/
theorem BoundaryInv.cursorInv {s : State} {m : Memory} : CursorInv m (decodeEnv s) (BoundaryInv s) where
  bit hw h := by
    obtain ⟨hl, hr, hc⟩ := hw.fetch h
    unfold advanceBit; split <;> exact ⟨hl, hr, hc⟩
  byte hw h _ := by
    obtain ⟨hl, hr, hc⟩ := hw.fetch h
    exact ⟨hl, hr, hc⟩
  align hw := by
    obtain ⟨hl, hr, hc⟩ := hw
    unfold alignWork; split <;> exact ⟨hl, hr, hc⟩

/-- What holds of the working copy at every instant of a symbol step of a session. -/
def WorkInv (s : State) (w : Work) : Prop := ReaderInv (decodeEnv s) w ∧ BoundaryInv s w

/-- Every read of a symbol step keeps it. -/
theorem SessionInv.workInv_cursorInv {s : State} (h : SessionInv s) {m : Memory} :
    CursorInv m (decodeEnv s) (WorkInv s) where
  bit hw hf := ⟨(ReaderInv.cursorInv h.envInv).bit hw.1 hf, BoundaryInv.cursorInv.bit hw.2 hf⟩
  byte hw hf h0 := ⟨(ReaderInv.cursorInv h.envInv).byte hw.1 hf h0, BoundaryInv.cursorInv.byte hw.2 hf h0⟩
  align hw := ⟨(ReaderInv.cursorInv (m := m) h.envInv).align hw.1, (BoundaryInv.cursorInv (m := m)).align hw.2⟩

/-- The cursor registers at the top of a turn (spec R89). -/
theorem SessionInv.workInv_copyWork {s : State} (h : SessionInv s) : WorkInv s (copyWork s) := by
  have hbit : s.inBitoff.toNat ≠ 0 → s.inBitoff ≠ 0 := by rintro h0 h1; simp [h1] at h0
  refine ⟨⟨s.inBitoff.isLt, h.cursor_le, fun h0 => h.cursor_bit (hbit h0), le_rfl, h.reqIn_le, fun hc => ?_⟩,
    ⟨fun _ => ⟨rfl, rfl⟩, h.reqIn_ge, fun hc => (h.chunk hc).data_lt⟩⟩
  have c := h.chunk hc
  refine ⟨c.cursor_le, fun heq => ?_, ?_, ?_, c.reqIn_le⟩
  · simp [copyWork, c.cursor_aligned (BitVec.eq_of_toNat_eq heq)]
  · rw [h.stride]; exact c.multiple
  · rw [h.stride]; exact c.near

/-- The working copy that has crossed (spec R110, R111). -/
theorem CrossedInv.workInv {s : State} (h : CrossedInv s) (hs : SessionInv s) (hl : LatchInv s) : WorkInv s s.work := by
  obtain ⟨hc, hat, hgates, hfield, hin, h0, hbnd, hge, hle⟩ := h
  have c := hs.chunk hc
  have hdata := hs.data_le
  have htotal := hl.availIn
  have hcur := congrArg BitVec.toNat hat
  have hshort := hs.envInv.field hc
  rw [hs.stride, decodeEnv_lenBytes] at hshort
  refine ⟨⟨by omega, by rw [decodeEnv_total]; omega, fun h => absurd h0 h, by rw [decodeEnv_base]; omega,
      by rw [decodeEnv_total]; omega, fun _ => ⟨by omega, fun _ => h0, ?_, by rw [hs.stride]; omega, by omega⟩⟩,
    ⟨by simp [hc], by omega, fun _ => by omega⟩⟩
  rw [hs.stride, hbnd, Nat.add_assoc]
  exact (Nat.dvd_add_self_right).2 c.multiple

/-- The working copy from which a symbol's fields are read. -/
theorem ReadsFrom.workInv {s : State} {w : Work} (hw : ReadsFrom s w) (h : Inv s) : WorkInv s w := by
  have hs := h.session_of_decoding hw.inSymbol.activity
  cases hw with
  | turn ha hl hb => exact hs.workInv_copyWork
  | crossed ha => exact (h.crossed ha).workInv hs (h.decoding (.inr ha)).2

/-- The working copy that a symbol commits. -/
theorem Commits.workInv {s : State} {i : Instr} {w1 w : Work} {p : List (Nat × Byte)} {n : Nat}
    (h : Commits s i w1 p w n) (hs : SessionInv s) (hw : WorkInv s w1) : WorkInv s w := by
  cases h with
  | copies _ _ => exact hw
  | stores _ _ hb =>
    have hinv := hs.workInv_cursorInv (m := s.inMem)
    have h0 : (alignWork w1).bitOff = 0 := by unfold alignWork; split <;> simp_all
    exact (hinv.takeBytes (hinv.align hw) h0 hb).1

/-- The offsets that a symbol writes are within its window. -/
theorem Commits.offsets {s : State} {i : Instr} {w1 w : Work} {p : List (Nat × Byte)} {n : Nat}
    (h : Commits s i w1 p w n) : ∀ x ∈ p, x.1 ≤ s.outMask.toNat := by
  intro x hx
  cases h <;> obtain ⟨j, -, rfl⟩ := pendingWrites_mem.1 hx <;> exact offsetOf_le _ _

/-! ### A symbol commits -/

/-- The registers of a session after a commit (spec R89). -/
theorem SessionInv.commitSymbol {s : State} (h : SessionInv s) {w : Work} (hw : WorkInv s w) {n : Nat}
    (hn : s.outCur.toNat + n ≤ s.decompSize.toNat) (p : List (Nat × Byte)) : SessionInv (commitSymbol p w n s) := by
  obtain ⟨⟨r1, r2, r3, r4, r5, r6⟩, ⟨b1, b2, b3⟩⟩ := hw
  have hin : (BitVec.ofNat 64 w.inByte).toNat = w.inByte := toNat_ofNat_of_le r2
  have hrq : (BitVec.ofNat 64 w.reqIn).toNat = w.reqIn := toNat_ofNat_of_le r5
  have hout : (BitVec.ofNat 64 (s.outCur.toNat + n)).toNat = s.outCur.toNat + n := toNat_ofNat_of_le hn
  have hbit : BitVec.ofNat 3 w.bitOff = 0 ↔ w.bitOff = 0 := by
    rw [← BitVec.toNat_inj, BitVec.toNat_ofNat, Nat.mod_eq_of_lt (by omega)]; rfl
  constructor
  case totalLen_lt => exact h.totalLen_lt
  case hdr_le => exact h.hdr_le
  case data_le => rw [commitSymbol_inByte, hin]; exact le_trans h.data_le r4
  case decomp_pos => exact h.decomp_pos
  case outMask => exact h.outMask
  case invMaskIn => exact h.invMaskIn
  case invMaskOut => exact h.invMaskOut
  case cursor_le => rw [commitSymbol_inByte, hin]; exact r2
  case cursor_bit => rw [commitSymbol_inByte, commitSymbol_inBitoff, hin]; exact fun h0 => r3 (mt hbit.2 h0)
  case outCur_le => rw [commitSymbol_outCur, hout]; exact hn
  case reqIn_ge => rw [commitSymbol_reqIn, hrq]; exact b2
  case reqIn_le => rw [commitSymbol_reqIn, hrq]; exact r5
  case window =>
    rw [commitSymbol_chunked]
    split
    case isFalse hc =>
      have hc : s.chunked = false := by simpa using hc
      have l := h.linear hc
      obtain ⟨hb, hq⟩ := b1 hc
      exact ⟨l.mask, l.lenBytes, by rw [commitSymbol_nextBnd, hb]; simpa using l.nextBnd,
        by rw [commitSymbol_reqIn, hq]; simpa using l.reqIn⟩
    case isTrue hc =>
      have c := h.chunk hc
      obtain ⟨c1, c2, c3, c4, c5⟩ := r6 hc
      rw [h.stride] at c3 c4
      have hb : (BitVec.ofNat 64 w.nextBnd).toNat = w.nextBnd := by
        obtain ⟨k, -, hk, hmask⟩ := c.mask
        have hpow : 2 ^ k ≤ 2 ^ 62 := Nat.pow_le_pow_right (by omega) hk
        have hbound := h.totalLen_lt
        unfold Config.totalLenBound at hbound
        rw [decodeEnv_total] at r2
        rw [BitVec.toNat_ofNat, Nat.mod_eq_of_lt (by omega)]
      refine ⟨c.mask, c.lenBytes_pos, c.lenBytes_le, ?_, fun heq => ?_, ?_, ?_, ?_, ?_⟩
      · rw [commitSymbol_inByte, commitSymbol_nextBnd, hin, hb]; exact c1
      · have heq := congrArg BitVec.toNat heq
        rw [commitSymbol_inByte, commitSymbol_nextBnd, hin, hb] at heq
        exact hbit.2 (c2 heq)
      · rw [commitSymbol_nextBnd, hb]; exact c3
      · rw [commitSymbol_nextBnd, hb]; exact b3 hc
      · rw [commitSymbol_inByte, commitSymbol_nextBnd, hin, hb]; exact c4
      · rw [commitSymbol_reqIn, commitSymbol_nextBnd, hrq, hb]; exact c5

/-- A symbol that commits keeps the invariant. -/
theorem Inv.commitSymbol {s : State} (h : Inv s) {w0 w1 w : Work} {i : Instr} {p : List (Nat × Byte)} {n : Nat}
    (hw : ReadsFrom s w0) (hr : runParse s.inMem (decodeEnv s) (symbolParse s.format) w0 = .ok (i, w1))
    (hc : Commits s i w1 p w n) : Inv (commitSymbol p w n s) := by
  have hs := h.session_of_decoding hw.inSymbol.activity
  obtain ⟨hcmd, hlatch⟩ := h.decoding hw.inSymbol.activity
  have hw1 := hs.workInv_cursorInv.runParse (bitsOnly_symbolParse _) (hw.workInv h) hr
  refine ⟨h.inMem, Memory.writeAll_wf h.outMem fun x hx => ?_, h.roms, h.nbits, rfl,
    fun _ => hs.commitSymbol (hc.workInv hs hw1) hc.size p, hcmd, ⟨hlatch.phase, hlatch.availIn, hlatch.availOut⟩, rfl⟩
  exact lt_of_le_of_lt (hc.offsets x hx) s.outMask.isLt

/-- CONT before a symbol's first bit keeps the invariant (spec R110, R111). -/
theorem Inv.crossBoundary {s : State} (h : Inv s) (ha : s.activity = .decode) (hl : loopTest s = none)
    (hb : onBoundary (decodeEnv s) (copyWork s) = true) {v : Nat} {w : Work}
    (hk : contChecks (decodeEnv s) (copyWork s) = none) (hv : contApply (decodeEnv s) v (copyWork s) = .ok w) :
    Inv { s with work := w, fsm := .readSymbol, activity := .symbol } := by
  have hs := h.session_of_decoding (.inl ha)
  obtain ⟨hcmd, hlatch⟩ := h.decoding (.inl ha)
  obtain ⟨hd, rfl⟩ := contApply_eq_ok.1 hv
  obtain ⟨-, -, havail⟩ := contChecks_eq_none.1 hk
  simp only [onBoundary, Bool.and_eq_true, beq_iff_eq] at hb
  obtain ⟨hch, hat⟩ := hb
  have hat : s.inByte = s.nextBnd := BitVec.eq_of_toNat_eq hat
  have hstride := hs.stride
  refine h.of_same rfl rfl ⟨rfl, rfl⟩ h.nbits rfl (fun hp => ⟨hp, rfl⟩)
    ⟨hcmd, ⟨hlatch.phase, hlatch.availIn, hlatch.availOut⟩, ?_⟩
  exact {
    chunked := hch
    atBoundary := hat
    gates := hl
    field := havail
    inByte := rfl
    bitOff := by simp [copyWork, (hs.chunk hch).cursor_aligned hat]
    nextBnd := by simp only [hstride, copyWork]; omega
    reqIn_ge := Nat.le_add_right _ _
    reqIn_le := hd }

/-! ### The statements -/

/-- Settles O38: every outcome of a step keeps the invariant. -/
theorem stepKeepsInv : Obligations.StepKeepsInv := by
  intro s t h hstep
  cases stepCase_of_step hstep with
  | ignored ha _ => exact h.taken ha s.status
  | initTruncated ha _ => exact (h.taken ha s.status).failedInit _
  | initBegun ha _ hl hf => exact h.beginInit ha hl hf
  | decodeRejected ha _ st => exact h.taken ha st
  | decodeEntered ha _ hp => exact h.enterDecode ha hp
  | headerFailed ha _ => exact h.failedInit _
  | opened ha e fr b hk ht => exact h.openSession ha hk ht
  | loopStopped ha _ => exact h.stopLoop ha _
  | crossed ha hl hb hk hv => exact h.crossBoundary ha hl hb hk hv
  | symbolFailed hs st => exact h.failedStep hs.activity st
  | committed hw _ hr hc => exact h.commitSymbol hw hr hc

/-- A memory that lists nothing is in canonical form. -/
theorem Memory.wf_nil : Memory.wf [] := ⟨.nil, by simp⟩

/-- The default ROMs are well-formed (spec R53 to R55), whatever `LEN_BYTES` is. -/
theorem romWf_defaultFormat : State.reset.format.romWf = true := by decide

/-- Settles O37: at reset there is no session, the engine is idle, and the ROMs hold their defaults. -/
theorem resetInv : Obligations.ResetInv :=
  ⟨⟨Memory.wf_nil, Memory.wf_nil, romWf_defaultFormat, rfl, rfl, fun hp => absurd rfl hp, rfl, rfl, rfl⟩,
    rfl, rfl, rfl, rfl, rfl, rfl⟩

/-- An access of the host between commands keeps the invariant when it keeps the canonical form of `IN` and touches nothing
that the invariant speaks of. -/
theorem Inv.of_host {s t : State} (h : Inv s) (hb : s.busy = false) (hin : t.inMem.wf)
    (ht : ∃ c a0 a1 a2 a3 ob n, t = { s with
      cmd := c, arg0 := a0, arg1 := a1, arg2 := a2, arg3 := a3, outBase := ob, freeCount := n, inMem := t.inMem }) :
    Inv t := by
  obtain ⟨ha, -⟩ := busy_eq_false.1 hb
  obtain ⟨q1, q2, q3⟩ := h.quiet ha
  obtain ⟨c, a0, a1, a2, a3, ob, n, ht⟩ := ht
  rw [ht]
  refine ⟨hin, h.outMem, h.roms, h.nbits, h.fsm, fun hp => (h.session hp).congr rfl, ?_⟩
  simpa only [ActivityInv, ha] using ⟨q1, q2, q3⟩

/-- Settles O39, from what each access can do. -/
theorem hostKeepsInv : Obligations.HostKeepsInv := by
  refine fun s h => ⟨fun index v t hw => ?_, fun index q hr => ?_, fun offset b t hst => ?_, fun t hr => ?_⟩
  · obtain ⟨hb, c, a0, a1, a2, a3, ob, rfl⟩ := hostWrite_eq_next hw
    exact h.of_host hb h.inMem ⟨_, _, _, _, _, _, _, rfl⟩
  · obtain ⟨hb, n, hq⟩ := hostRead_eq_next hr
    rw [hq]
    exact h.of_host hb h.inMem ⟨_, _, _, _, _, _, _, rfl⟩
  · obtain ⟨hb, rfl⟩ := hostStore_eq_next hst
    exact h.of_host hb (Memory.write_wf h.inMem offset.isLt) ⟨_, _, _, _, _, _, _, rfl⟩
  · rw [hostReset_eq_next hr]
    exact ⟨h.inMem, h.outMem, h.roms, rfl, rfl, fun hp => absurd rfl hp, rfl, rfl, rfl⟩

end Sys2Proof.Machine

/-! What a step of a DECODE can see of the two memories (O40): a run on memories that agree up to the masks is the same run.
`withMem` puts two such memories into a state. -/

namespace Sys2Proof.Machine

/-! ### The reader on two memories -/

/-- Two memories read alike at every offset of a window. -/
def AgreeUpTo (mask : Nat) (m m' : Memory) : Prop := ∀ a, a ≤ mask → m.read a = m'.read a

theorem AgreeUpTo.offset {mask : Nat} {m m' : Memory} (h : AgreeUpTo mask m m') (p : Nat) :
    m.read (offsetOf p mask) = m'.read (offsetOf p mask) := h _ (offsetOf_le p mask)

section
variable {m m' : Memory} {e : Env} (h : AgreeUpTo e.inMask m m')
include h

theorem contBytes_congr (w : Work) : contBytes m e w = contBytes m' e w := by simp only [contBytes, h.offset]

theorem readCont_congr (w : Work) : readCont m e w = readCont m' e w := by simp only [readCont, contBytes_congr h]

theorem fetchByte_congr (w : Work) : fetchByte m e w = fetchByte m' e w := by
  simp only [fetchByte, crossIfNeeded, crossBoundary, readCont_congr h, h.offset]

theorem take_congr (n : Nat) (w : Work) : take m e n w = take m' e n w := by
  induction n generalizing w with
  | zero => rfl
  | succ n ih => simp only [take, takeBit, fetchByte_congr h, ih]

theorem takeBytes_congr (n : Nat) (w : Work) : takeBytes m e n w = takeBytes m' e n w := by
  induction n generalizing w with
  | zero => rfl
  | succ n ih => simp only [takeBytes, takeByte, fetchByte_congr h, ih]

theorem runParse_congr {α : Type} (p : Parse α) (w : Work) : runParse m e p w = runParse m' e p w := by
  induction p generalizing w with
  | done a => rfl
  | take n k ih => simp only [runParse, take_congr h, ih]
  | align k ih => simp only [runParse, ih]
  | byte k ih => simp only [runParse, takeByte, fetchByte_congr h, ih]

end

/-! ### The bytes a match copies, and the bytes stored -/

theorem matchBytes_congr {m m' : Memory} {mask : Nat} (h : AgreeUpTo mask m m') (c d n : Nat) :
    matchBytes m mask c d n = matchBytes m' mask c d n := by
  induction n with
  | zero => rfl
  | succ n ih => simp only [matchBytes, ih, h.offset]

/-- The same bytes stored into two memories that agree. -/
theorem AgreeUpTo.writeAll {m m' : Memory} {mask : Nat} (hm : m.wf) (hm' : m'.wf) (h : AgreeUpTo mask m m')
    {p : List (Nat × Byte)} (hp : ∀ x ∈ p, x.1 < 2 ^ 64) : AgreeUpTo mask (m.writeAll p) (m'.writeAll p) := by
  induction p generalizing m m' with
  | nil => exact h
  | cons x p ih =>
    have hx := hp x (by simp)
    refine ih (Memory.write_wf hm hx) (Memory.write_wf hm' hx) (fun a ha => ?_) fun y hy => hp y (by simp [hy])
    by_cases hax : a = x.1
    · rw [hax, Memory.read_write_same hm, Memory.read_write_same hm']
    · rw [Memory.read_write_other _ _ hax, Memory.read_write_other _ _ hax, h a ha]

/-- Bytes stored within a window leave every offset above it. -/
theorem read_writeAll_above (m : Memory) {p : List (Nat × Byte)} {mask a : Nat} (hp : ∀ x ∈ p, x.1 ≤ mask) (ha : mask < a) :
    (m.writeAll p).read a = m.read a :=
  Memory.read_writeAll_other m fun x hx => by have := hp x hx; omega

/-! ### A state with other memories -/

/-- A state with other contents of `IN` and `OUT`. -/
def withMem (mi mo : Memory) (s : State) : State := { s with inMem := mi, outMem := mo }

/-- What a fetch answers, with other memories. -/
def Fetched.withMem (mi mo : Memory) : Fetched → Fetched
  | .run i s => .run i (Machine.withMem mi mo s)
  | .stop s => .stop (Machine.withMem mi mo s)

theorem raiseStatus_withMem (mi mo : Memory) (st : Status) (s : State) :
    raiseStatus st (withMem mi mo s) = withMem mi mo (raiseStatus st s) := by
  cases ha : s.activity <;> simp only [raiseStatus, withMem, ha] <;> rfl

section
variable {mi mo : Memory} {s : State}

theorem fetchSymbol_withMem (hi : AgreeUpTo s.inMask.toNat mi s.inMem) :
    fetchSymbol (withMem mi mo s) = (fetchSymbol s).withMem mi mo := by
  have hp : runParse (withMem mi mo s).inMem (decodeEnv (withMem mi mo s)) (symbolParse (withMem mi mo s).format)
      (withMem mi mo s).work = runParse s.inMem (decodeEnv s) (symbolParse s.format) s.work := runParse_congr hi _ _
  rw [fetchSymbol, hp, fetchSymbol]
  cases runParse s.inMem (decodeEnv s) (symbolParse s.format) s.work with
  | ok q => rfl
  | error st => exact congrArg Fetched.stop (raiseStatus_withMem mi mo st s)

theorem fetchCont_withMem (hi : AgreeUpTo s.inMask.toNat mi s.inMem) :
    fetchCont (withMem mi mo s) = (fetchCont s).withMem mi mo := by
  have hp : readCont (withMem mi mo s).inMem (decodeEnv (withMem mi mo s)) (withMem mi mo s).work =
      readCont s.inMem (decodeEnv s) s.work := readCont_congr hi _
  rw [fetchCont, hp, fetchCont]
  cases readCont s.inMem (decodeEnv s) s.work with
  | ok i => rfl
  | error st => exact congrArg Fetched.stop (raiseStatus_withMem mi mo st s)

/-- In a DECODE the fetch does not tell apart contents of `IN` that agree up to the mask, nor any contents of `OUT`. -/
theorem fetch_withMem (ha : s.activity = .decode ∨ s.activity = .symbol) (hi : AgreeUpTo s.inMask.toNat mi s.inMem) :
    fetch (withMem mi mo s) = (fetch s).withMem mi mo := by
  rcases ha with ha | ha
  · rw [fetch_decode ha, fetch_decode (s := withMem mi mo s) ha]
    have hsym : fetchSymbol (beginSymbol (withMem mi mo s)) = (fetchSymbol (beginSymbol s)).withMem mi mo :=
      fetchSymbol_withMem (s := beginSymbol s) hi
    have hcont : fetchCont (beginSymbol (withMem mi mo s)) = (fetchCont (beginSymbol s)).withMem mi mo :=
      fetchCont_withMem (s := beginSymbol s) hi
    rcases fetchTurn_cases s with ⟨st, hl, hx⟩ | ⟨hl, hb, hx⟩ | ⟨hl, hb, hx⟩
    · have hl' : loopTest (withMem mi mo s) = some st := hl
      rw [hx, fetchTurn, hl']; rfl
    · have hl' : loopTest (withMem mi mo s) = none := hl
      have hb' : onBoundary (decodeEnv (withMem mi mo s)) (copyWork (withMem mi mo s)) = true := hb
      rw [hx, fetchTurn, hl', hb', ← hcont]; rfl
    · have hl' : loopTest (withMem mi mo s) = none := hl
      have hb' : onBoundary (decodeEnv (withMem mi mo s)) (copyWork (withMem mi mo s)) = false := hb
      rw [hx, fetchTurn, hl', hb', ← hsym]; rfl
  · rw [fetch_symbol ha, fetch_symbol (s := withMem mi mo s) ha, fetchSymbol_withMem hi]

/-! ### The meanings on other memories -/

/-- An outcome on other memories: the step stores bytes `p` within the window of `OUT`, the same bytes into whatever `OUT`
holds, and all else is alike. -/
def SameOutcome (mi mo : Memory) (s t : State) (x : Host.Outcome State Fault Refusal) : Prop :=
  ∃ p : List (Nat × Byte), (∀ q ∈ p, q.1 ≤ s.outMask.toNat) ∧ t.outMem = s.outMem.writeAll p ∧
    x = .next (withMem mi (mo.writeAll p) t)

/-- A step that stores nothing. -/
theorem sameOutcome_raiseStatus (st : Status) :
    SameOutcome mi mo s (raiseStatus st s) (.next (raiseStatus st (withMem mi mo s))) :=
  ⟨[], by simp, by simp, by rw [raiseStatus_withMem]; rfl⟩

/-- A commit stores its pending writes. -/
theorem sameOutcome_commitSymbol {p : List (Nat × Byte)} (hp : ∀ q ∈ p, q.1 ≤ s.outMask.toNat) (w : Work) (n : Nat) :
    SameOutcome mi mo s (commitSymbol p w n s) (.next (commitSymbol p w n (withMem mi mo s))) := ⟨p, hp, rfl, rfl⟩

/-- Pending writes lie within the window. -/
theorem pendingWrites_le {mask c : Nat} {bs : List Byte} : ∀ q ∈ pendingWrites mask c bs, q.1 ≤ mask := by
  intro q hq
  obtain ⟨j, -, rfl⟩ := pendingWrites_mem.1 hq
  exact offsetOf_le _ _

variable {t : State}

theorem copyMatch_withMem (ho : AgreeUpTo s.outMask.toNat mo s.outMem) {n d : Nat} (h : copyMatch n d s = .next t) :
    SameOutcome mi mo s t (copyMatch n d (withMem mi mo s)) := by
  have hb : matchBytes mo s.outMask.toNat s.outCur.toNat d n = matchBytes s.outMem s.outMask.toNat s.outCur.toNat d n :=
    matchBytes_congr ho _ _ _
  rcases copyMatch_eq n d s with ⟨st, hc, hx⟩ | ⟨hc, hx⟩ <;> rw [hx] at h <;> cases h
  · have hc' : matchChecks (withMem mi mo s) n d = some st := hc
    rw [copyMatch, hc']
    exact sameOutcome_raiseStatus st
  · have hc' : matchChecks (withMem mi mo s) n d = none := hc
    rw [copyMatch, hc', ← hb]
    exact sameOutcome_commitSymbol pendingWrites_le s.work n

theorem copyLiteralRun_withMem (hi : AgreeUpTo s.inMask.toNat mi s.inMem) {n : Nat} (h : copyLiteralRun n s = .next t) :
    SameOutcome mi mo s t (copyLiteralRun n (withMem mi mo s)) := by
  have ht : takeBytes mi (decodeEnv s) n (alignWork s.work) = takeBytes s.inMem (decodeEnv s) n (alignWork s.work) :=
    takeBytes_congr hi _ _
  rcases copyLiteralRun_eq n s with ⟨st, hc, hx⟩ | ⟨hc, st, hb, hx⟩ | ⟨hc, bs, w, hb, hx⟩ <;> rw [hx] at h <;> cases h
  · have hc' : literalChecks (withMem mi mo s) n = some st := hc
    rw [copyLiteralRun, hc']
    exact sameOutcome_raiseStatus st
  · have hc' : literalChecks (withMem mi mo s) n = none := hc
    have hb' : takeBytes (withMem mi mo s).inMem (decodeEnv (withMem mi mo s)) n (alignWork (withMem mi mo s).work)
        = .error st := ht.trans hb
    rw [copyLiteralRun, hc', hb']
    exact sameOutcome_raiseStatus st
  · have hc' : literalChecks (withMem mi mo s) n = none := hc
    have hb' : takeBytes (withMem mi mo s).inMem (decodeEnv (withMem mi mo s)) n (alignWork (withMem mi mo s).work)
        = .ok (bs, w) := ht.trans hb
    rw [copyLiteralRun, hc', hb']
    exact sameOutcome_commitSymbol pendingWrites_le w n

theorem execCont_withMem {v : Word} (h : execCont v s = .next t) :
    SameOutcome mi mo s t (execCont v (withMem mi mo s)) := by
  rcases execCont_eq v s with ⟨st, hc, hx⟩ | ⟨w, hc, hx⟩ <;> rw [hx] at h <;> cases h
  · have hc' : contApply (decodeEnv (withMem mi mo s)) v.toNat (withMem mi mo s).work = .error st := hc
    rw [execCont, hc']
    exact sameOutcome_raiseStatus st
  · have hc' : contApply (decodeEnv (withMem mi mo s)) v.toNat (withMem mi mo s).work = .ok w := hc
    rw [execCont, hc']
    exact ⟨[], by simp, rfl, rfl⟩

/-- The meaning of a symbol or of CONT. -/
theorem exec_withMem {i : Instr} (hslot : i.slot = .symbol ∨ ∃ v, i = .cont v)
    (hi : AgreeUpTo s.inMask.toNat mi s.inMem) (ho : AgreeUpTo s.outMask.toNat mo s.outMem) (h : exec i s = .next t) :
    SameOutcome mi mo s t (exec i (withMem mi mo s)) := by
  rcases hslot with hsym | ⟨v, rfl⟩
  · rcases operands_of_symbol s.format hsym with ⟨n, d, hop⟩ | ⟨n, hop⟩
    · rw [exec_of_matchOperands hop] at h
      rw [exec_of_matchOperands (s := withMem mi mo s) hop]
      exact copyMatch_withMem ho h
    · rw [exec_of_literalOperand hop] at h
      rw [exec_of_literalOperand (s := withMem mi mo s) hop]
      exact copyLiteralRun_withMem hi h
  · exact execCont_withMem h

/-! ### A step of a DECODE -/

/-- What a fetch in a DECODE answers: a symbol or CONT, on the state with a working copy and an `FSM`, or a stop, which
leaves `OUT`. -/
inductive DecodeFetch (s : State) : Fetched → Prop where
  | run {i : Instr} (w : Work) (f : Fsm) (hslot : i.slot = .symbol ∨ ∃ v, i = .cont v) :
      DecodeFetch s (.run i { s with work := w, fsm := f })
  | stop {t : State} (ho : t.outMem = s.outMem) : DecodeFetch s (.stop t)

theorem decodeFetch_fetchSymbol (s : State) : DecodeFetch s (fetchSymbol s) := by
  rcases fetchSymbol_cases s with ⟨st, -, hx⟩ | ⟨i, w, hp, hx⟩ <;> rw [hx]
  · exact .stop (raiseStatus_outMem st s)
  · exact .run w _ (.inl ((gives_symbolParse _).runParse hp))

theorem decodeFetch_fetchCont (s : State) : DecodeFetch s (fetchCont s) := by
  rcases fetchCont_cases s with ⟨st, -, hx⟩ | ⟨-, hx⟩ <;> rw [hx]
  · exact .stop (raiseStatus_outMem st s)
  · exact .run s.work s.fsm (.inr ⟨_, rfl⟩)

/-- A symbol step begun answers as from the state before. -/
theorem DecodeFetch.of_beginSymbol {f : Fetched} (h : DecodeFetch (beginSymbol s) f) : DecodeFetch s f := by
  cases h with
  | run w f hslot => exact .run w f hslot
  | stop ho => exact .stop ho

theorem decodeFetch_fetch (ha : s.activity = .decode ∨ s.activity = .symbol) : DecodeFetch s (fetch s) := by
  rcases ha with ha | ha
  · rw [fetch_decode ha]
    rcases fetchTurn_cases s with ⟨st, -, hx⟩ | ⟨-, -, hx⟩ | ⟨-, -, hx⟩ <;> rw [hx]
    · exact .stop rfl
    · exact (decodeFetch_fetchCont _).of_beginSymbol
    · exact (decodeFetch_fetchSymbol _).of_beginSymbol
  · rw [fetch_symbol ha]; exact decodeFetch_fetchSymbol s

/-- A step of a DECODE on other memories that agree up to the masks. -/
theorem step_withMem (ha : s.activity = .decode ∨ s.activity = .symbol) (hi : AgreeUpTo s.inMask.toNat mi s.inMem)
    (ho : AgreeUpTo s.outMask.toNat mo s.outMem) (h : step s = .next t) :
    SameOutcome mi mo s t (step (withMem mi mo s)) := by
  have hf := fetch_withMem (mo := mo) ha hi
  have hd := decodeFetch_fetch ha
  generalize hs : fetch s = f at hf hd
  cases hd with
  | run w f hslot =>
    rw [step_of_run hs] at h
    rw [step_of_run hf]
    exact exec_withMem (s := { s with work := w, fsm := f }) hslot hi ho h
  | stop hout =>
    rw [step_of_stop hs] at h
    cases h
    rw [step_of_stop hf]
    exact ⟨[], by simp, hout, rfl⟩

end

/-! ### The bounds of a session -/

/-- A window mask plus one is a power of two (spec R17). -/
theorem IsWindowMask.add_one {m : Nat} (h : IsWindowMask m) : ∃ k, m + 1 = 2 ^ k := by
  rcases h with rfl | ⟨k, -, rfl⟩
  · exact ⟨64, rfl⟩
  · exact ⟨k, Nat.sub_add_cancel (Nat.two_pow_pos k)⟩

/-- The input mask of a session is a window mask (spec R17, R115). -/
theorem SessionInv.isWindowMask_inMask {s : State} (h : SessionInv s) : IsWindowMask s.inMask.toNat := by
  cases hc : s.chunked with
  | true => obtain ⟨k, -, hk, hm⟩ := (h.chunk hc).mask; exact .inr ⟨k, hk, hm⟩
  | false => exact .inl (h.linear hc).mask

/-- Settles O40: the bounds from the invariant of the next state, the reach of the accesses from `step_withMem`. -/
theorem sessionBounds : Obligations.SessionBounds := by
  intro s t hinv h
  refine ⟨fun hp => ?_, fun ha => ⟨fun m hm => ?_, fun m hwf hm => ?_, fun a ha' => ?_⟩⟩
  · have hs := (stepKeepsInv s t hinv h).session hp
    exact ⟨fun _ => hs.cursor_le, hs.cursor_bit, hs.outCur_le, hs.isWindowMask_inMask.add_one, hs.outMask.add_one⟩
  · obtain ⟨p, -, hout, hx⟩ := step_withMem (mi := m) (mo := s.outMem) ha hm (fun _ _ => rfl) h
    exact hx.trans (by rw [← hout]; rfl)
  · obtain ⟨p, hp, hout, hx⟩ := step_withMem (mi := s.inMem) (mo := m) ha (fun _ _ => rfl) hm h
    have hlt : ∀ x ∈ p, x.1 < 2 ^ 64 := fun x hx => lt_of_le_of_lt (hp x hx) s.outMask.isLt
    have hin : t.inMem = s.inMem := (stepLeavesHostData s t h).1
    refine ⟨m.writeAll p, hx.trans (by rw [← hin]; rfl), ?_, fun a ha' => read_writeAll_above m hp ha'⟩
    rw [hout]
    exact AgreeUpTo.writeAll hwf hinv.outMem hm hlt
  · obtain ⟨p, hp, hout, -⟩ := step_withMem (mi := s.inMem) (mo := s.outMem) ha (fun _ _ => rfl) (fun _ _ => rfl) h
    rw [hout]
    exact read_writeAll_above _ hp ha'

end Sys2Proof.Machine

/-! What the engine reads and stores of the two memories, position by position (O47 to O49), and that the host is kept out of
them during a command (O58). `AgreeAhead` and `AgreeLive` say which bytes of `IN` and of `OUT` a step of a DECODE can see, and
`SameStores` that a run on other memories which agree there is the same run. -/

namespace Sys2Proof.Machine

/-! ### The host during a command -/

/-- Settles O58: every access first asks whether a command is in progress. -/
theorem hostKeptOut : Obligations.HostKeptOut := fun _ hs =>
  ⟨fun _ => if_pos hs, fun _ _ => if_pos hs, fun _ _ => if_pos hs, fun _ => if_pos hs, if_pos hs⟩

/-! ### What a committed symbol stores -/

section
variable {s : State} {i : Instr} {w1 w : Work} {p : List (Nat × Byte)} {n : Nat}

/-- The pending writes of a symbol are one byte for each position from `OUT_CUR` up to its length (spec R89). -/
theorem Commits.pending (h : Commits s i w1 p w n) :
    ∃ bs : List Byte, bs.length = n ∧ p = pendingWrites s.outMask.toNat s.outCur.toNat bs := by
  cases h with
  | copies _ _ => exact ⟨_, matchBytes_length _ _ _ _ _, rfl⟩
  | stores _ _ hb => exact ⟨_, takeBytes_length hb, rfl⟩

/-- A symbol that commits stays within the output that the host grants (spec R98, check 5). -/
theorem Commits.room (h : Commits s i w1 p w n) : s.outCur.toNat + n ≤ s.availOut.toNat := by
  cases h with
  | copies _ hc => exact checkRoom_eq_none.1 (matchChecks_eq_none.1 hc).2.2
  | stores _ hc _ => exact checkRoom_eq_none.1 (literalChecks_eq_none.1 hc).2

/-- `OUT_CUR` after a commit (spec R89). -/
theorem Commits.outCur (h : Commits s i w1 p w n) : (commitSymbol p w n s).outCur.toNat = s.outCur.toNat + n :=
  toNat_ofNat_of_le h.size

end

/-- A run of bytes is stored at the offsets of its positions only. -/
theorem read_pendingWrites_other (m : Memory) {mask c a : Nat} {bs : List Byte}
    (h : ∀ q, c ≤ q → q < c + bs.length → a ≠ offsetOf q mask) :
    (m.writeAll (pendingWrites mask c bs)).read a = m.read a := by
  refine Memory.read_writeAll_other m fun x hx => ?_
  obtain ⟨j, hj, rfl⟩ := pendingWrites_mem.1 hx
  exact (h (c + j) (by omega) (by omega)).symm

/-- Settles O48: of the outcomes of a step only a committed symbol stores, and it stores its pending writes. -/
theorem outputWriteSet : Obligations.OutputWriteSet := by
  intro s t _ h
  cases stepCase_of_step h
  case committed hc =>
    rw [hc.outCur]
    obtain ⟨bs, rfl, rfl⟩ := hc.pending
    exact ⟨fun a ha => read_pendingWrites_other s.outMem ha, fun _ => ⟨hc.room, hc.size⟩⟩
  all_goals exact ⟨fun _ _ => rfl, fun hne => absurd rfl hne⟩

/-! ### What the reader sees of `IN` -/

/-- Two memories read alike, through the mask, at the positions from `lo` up to the end of the available input. -/
def AgreeAhead (e : Env) (lo : Nat) (m m' : Memory) : Prop :=
  ∀ p, lo ≤ p → p < e.avail → m.read (offsetOf p e.inMask) = m'.read (offsetOf p e.inMask)

theorem inByte_le_advanceBit (w : Work) : w.inByte ≤ (advanceBit w).inByte := by unfold advanceBit; split <;> simp

theorem inByte_le_alignWork (w : Work) : w.inByte ≤ (alignWork w).inByte := by unfold alignWork; split <;> simp

/-- A fetch does not move the cursor back: a crossing starts where the cursor stands (spec R111). -/
theorem inByte_le_of_fetchByte {m : Memory} {e : Env} {w w' : Work} {b : Byte} (h : fetchByte m e w = .ok (b, w')) :
    w.inByte ≤ w'.inByte := by
  obtain ⟨hc, -, -⟩ := fetchByte_eq_ok.1 h
  unfold crossIfNeeded at hc
  split at hc
  case isTrue hon =>
    obtain ⟨-, v, hv⟩ := crossBoundary_eq_ok hc
    obtain ⟨-, rfl⟩ := contApply_eq_ok.1 hv
    simp only [onBoundary, Bool.and_eq_true, beq_iff_eq] at hon
    simp only; omega
  case isFalse => cases hc; exact le_rfl

theorem inByte_le_of_takeByte {m : Memory} {e : Env} {w w' : Work} {b : Byte} (h : takeByte m e w = .ok (b, w')) :
    w.inByte ≤ w'.inByte := by
  obtain ⟨w1, hf, rfl⟩ := takeByte_eq_ok h
  exact (inByte_le_of_fetchByte hf).trans (Nat.le_succ _)

/-- No read moves the cursor below a position that it has passed. -/
theorem cursorInv_ahead (m : Memory) (e : Env) (lo : Nat) : CursorInv m e (fun w => lo ≤ w.inByte) where
  bit hw h := hw.trans ((inByte_le_of_fetchByte h).trans (inByte_le_advanceBit _))
  byte hw h _ := hw.trans ((inByte_le_of_fetchByte h).trans (Nat.le_succ _))
  align hw := hw.trans (inByte_le_alignWork _)

section
variable {m m' : Memory} {e : Env} {lo : Nat} (h : AgreeAhead e lo m m')
include h

/-- A continuation field that passes its checks lies inside the available input (spec R110). -/
theorem AgreeAhead.readCont_eq {w : Work} (hw : lo ≤ w.nextBnd) : readCont m e w = readCont m' e w := by
  unfold readCont
  cases hc : contChecks e w with
  | some st => rfl
  | none =>
    obtain ⟨-, -, hfield⟩ := contChecks_eq_none.1 hc
    have hbytes : contBytes m e w = contBytes m' e w :=
      List.map_congr_left fun j hj => h _ (by omega) (by have := List.mem_range.1 hj; omega)
    rw [hbytes]

theorem AgreeAhead.crossIfNeeded_eq {w : Work} (hw : lo ≤ w.inByte) : crossIfNeeded m e w = crossIfNeeded m' e w := by
  unfold crossIfNeeded
  split
  case isTrue hon =>
    simp only [onBoundary, Bool.and_eq_true, beq_iff_eq] at hon
    rw [crossBoundary, crossBoundary, h.readCont_eq (hon.2 ▸ hw)]
  case isFalse => rfl

/-- A byte that passes its checks lies inside the available input (spec R82). -/
theorem AgreeAhead.fetchByte_eq {w : Work} (hw : lo ≤ w.inByte) : fetchByte m e w = fetchByte m' e w := by
  rw [fetchByte, fetchByte, h.crossIfNeeded_eq hw]
  cases hc : crossIfNeeded m' e w with
  | error st => rfl
  | ok w' =>
    cases hb : byteChecks e w'.inByte with
    | some st => simp only [hb]
    | none =>
      have hle : w.inByte ≤ w'.inByte := inByte_le_of_fetchByte (fetchByte_eq_ok.2 ⟨hc, hb, rfl⟩)
      simp only [hb, h _ (hw.trans hle) (byteChecks_eq_none.1 hb).2.2]

theorem AgreeAhead.take_eq (n : Nat) {w : Work} (hw : lo ≤ w.inByte) : take m e n w = take m' e n w := by
  induction n generalizing w with
  | zero => rfl
  | succ n ih =>
    rw [take, take, takeBit, takeBit, h.fetchByte_eq hw]
    cases hf : fetchByte m' e w with
    | error st => rfl
    | ok q => simp only [ih ((cursorInv_ahead m' e lo).bit hw hf)]

theorem AgreeAhead.takeByte_eq {w : Work} (hw : lo ≤ w.inByte) : takeByte m e w = takeByte m' e w := by
  rw [takeByte, takeByte, h.fetchByte_eq hw]

theorem AgreeAhead.takeBytes_eq (n : Nat) {w : Work} (hw : lo ≤ w.inByte) : takeBytes m e n w = takeBytes m' e n w := by
  induction n generalizing w with
  | zero => rfl
  | succ n ih =>
    rw [takeBytes, takeBytes, h.takeByte_eq hw]
    cases hb : takeByte m' e w with
    | error st => rfl
    | ok q => simp only [ih (hw.trans (inByte_le_of_takeByte hb))]

theorem AgreeAhead.runParse_eq {α : Type} (p : Parse α) {w : Work} (hw : lo ≤ w.inByte) :
    runParse m e p w = runParse m' e p w := by
  induction p generalizing w with
  | done a => rfl
  | take n k ih =>
    rw [runParse, runParse, h.take_eq n hw]
    cases ht : take m' e n w with
    | error st => rfl
    | ok q => exact ih q.1 ((cursorInv_ahead m' e lo).take hw ht)
  | align k ih => exact ih (hw.trans (inByte_le_alignWork w))
  | byte k ih =>
    rw [runParse, runParse, h.takeByte_eq hw]
    cases hb : takeByte m' e w with
    | error st => rfl
    | ok q => exact ih _ (hw.trans (inByte_le_of_takeByte hb))

end

/-! ### What a match sees of `OUT` -/

/-- Two memories read alike at the live output positions: those below `OUT_CUR` and inside the window (spec R37). -/
def AgreeLive (s : State) (m m' : Memory) : Prop :=
  ∀ q, q < s.outCur.toNat → s.outCur.toNat ≤ q + s.outMask.toNat + 1 →
    m.read (offsetOf q s.outMask.toNat) = m'.read (offsetOf q s.outMask.toNat)

/-- A distance that passes its checks reaches no further back than the window (spec R98, checks 3 and 4). -/
theorem distance_le_window {s : State} {d : Nat} (h : checkDistance s d = none) :
    d ≤ s.outCur.toNat ∧ d ≤ s.outMask.toNat + 1 := by
  obtain ⟨hcur, hwin⟩ := checkDistance_eq_none.1 h
  refine ⟨hcur, ?_⟩
  by_cases hm : s.outMask.toNat = all1
  · have := s.outCur.isLt
    unfold all1 at hm; omega
  · exact hwin hm

/-- The bytes of a match come from live positions or from the match itself (spec R97). -/
theorem AgreeLive.matchBytes_eq {s : State} {m m' : Memory} (h : AgreeLive s m m') {d : Nat} (hd : checkDistance s d = none)
    (n : Nat) :
    matchBytes m s.outMask.toNat s.outCur.toNat d n = matchBytes m' s.outMask.toNat s.outCur.toNat d n := by
  obtain ⟨hcur, hwin⟩ := distance_le_window hd
  induction n with
  | zero => rfl
  | succ n ih =>
    simp only [matchBytes, ih]
    split
    case isTrue => rfl
    case isFalse hsrc => rw [h _ (by omega) (by omega)]

/-- The same bytes stored into two memories: they read alike where they did before and where a byte is stored. -/
theorem read_writeAll_congr {m m' : Memory} (hm : m.wf) (hm' : m'.wf) {p : List (Nat × Byte)} (hp : ∀ x ∈ p, x.1 < 2 ^ 64)
    {a : Nat} (h : m.read a = m'.read a ∨ ∃ x ∈ p, x.1 = a) : (m.writeAll p).read a = (m'.writeAll p).read a := by
  induction p generalizing m m' with
  | nil => simpa using h
  | cons x p ih =>
    have hx := hp x (by simp)
    refine ih (Memory.write_wf hm hx) (Memory.write_wf hm' hx) (fun y hy => hp y (by simp [hy])) ?_
    by_cases hax : a = x.1
    · left; rw [hax, Memory.read_write_same hm, Memory.read_write_same hm']
    · rw [Memory.read_write_other _ _ hax, Memory.read_write_other _ _ hax]
      refine h.imp_right ?_
      rintro ⟨y, hy, rfl⟩
      exact ⟨y, (List.mem_cons.1 hy).resolve_left (by rintro rfl; exact hax rfl), rfl⟩

/-- Memories that agree at the live positions agree at those of a longer output, once its bytes are stored from `OUT_CUR`
up: a position is live already, or its byte is one of those stored. -/
theorem AgreeLive.read_store {s : State} {m m' : Memory} (h : AgreeLive s m m') (hm : m.wf) (hm' : m'.wf) (bs : List Byte)
    {q : Nat} (hq : q < s.outCur.toNat + bs.length) (hlive : s.outCur.toNat + bs.length ≤ q + s.outMask.toNat + 1) :
    (m.writeAll (pendingWrites s.outMask.toNat s.outCur.toNat bs)).read (offsetOf q s.outMask.toNat) =
      (m'.writeAll (pendingWrites s.outMask.toNat s.outCur.toNat bs)).read (offsetOf q s.outMask.toNat) := by
  refine read_writeAll_congr hm hm' (fun x hx => lt_of_le_of_lt (pendingWrites_le x hx) s.outMask.isLt) ?_
  by_cases hold : q < s.outCur.toNat
  · exact .inl (h q hold (by omega))
  · obtain ⟨j, rfl⟩ := Nat.exists_eq_add_of_le (Nat.le_of_not_lt hold)
    exact .inr ⟨_, pendingWrites_mem.2 ⟨j, by omega, rfl⟩, rfl⟩

/-! ### A step of a DECODE on other memories -/

/-- The outcome of a step from what it has fetched. -/
def Fetched.outcome : Fetched → Host.Outcome State Fault Refusal
  | .run i s => exec i s
  | .stop s => .next s

theorem step_eq_outcome (s : State) : step s = (fetch s).outcome := by
  unfold step; cases fetch s <;> rfl

/-- The step from `s` to `t` stores some bytes at the output positions from `OUT_CUR` up and moves `OUT_CUR` past them; `x`,
its outcome on other memories, stores the same bytes there, and all else is alike. -/
def SameStores (mi mo : Memory) (s t : State) (x : Host.Outcome State Fault Refusal) : Prop :=
  ∃ bs : List Byte, t.outCur.toNat = s.outCur.toNat + bs.length ∧
    t.outMem = s.outMem.writeAll (pendingWrites s.outMask.toNat s.outCur.toNat bs) ∧
    x = .next (withMem mi (mo.writeAll (pendingWrites s.outMask.toNat s.outCur.toNat bs)) t)

theorem SameStores.sameOutcome {mi mo : Memory} {s t : State} {x : Host.Outcome State Fault Refusal}
    (h : SameStores mi mo s t x) : SameOutcome mi mo s t x := by
  obtain ⟨bs, -, hout, hx⟩ := h
  exact ⟨_, pendingWrites_le, hout, hx⟩

section
variable {mi mo : Memory} {s t : State} {lo : Nat}

/-- A step that stores nothing. -/
theorem sameStores_of_frame (hc : t.outCur = s.outCur) (ho : t.outMem = s.outMem) :
    SameStores mi mo s t (.next (withMem mi mo t)) := ⟨[], by simp [hc], by simp [ho, pendingWrites], rfl⟩

theorem sameStores_raiseStatus (st : Status) :
    SameStores mi mo s (raiseStatus st s) (.next (raiseStatus st (withMem mi mo s))) := by
  rw [raiseStatus_withMem]
  exact sameStores_of_frame (raiseStatus_outCur st s) (raiseStatus_outMem st s)

/-- A commit stores one byte for each position that it adds. -/
theorem sameStores_commitSymbol {bs : List Byte} {n : Nat} (hlen : bs.length = n)
    (hn : s.outCur.toNat + n ≤ s.decompSize.toNat) (w : Work) :
    SameStores mi mo s (commitSymbol (pendingWrites s.outMask.toNat s.outCur.toNat bs) w n s)
      (.next (commitSymbol (pendingWrites s.outMask.toNat s.outCur.toNat bs) w n (withMem mi mo s))) :=
  ⟨bs, by rw [hlen]; exact toNat_ofNat_of_le hn, rfl, rfl⟩

/-- CopyMatch reads live output positions and nothing of `IN`. -/
theorem copyMatch_sameStores (ho : AgreeLive s mo s.outMem) {n d : Nat} (h : copyMatch n d s = .next t) :
    SameStores mi mo s t (copyMatch n d (withMem mi mo s)) := by
  rcases copyMatch_eq n d s with ⟨st, hc, hx⟩ | ⟨hc, hx⟩ <;> rw [hx] at h <;> cases h
  · have hc' : matchChecks (withMem mi mo s) n d = some st := hc
    rw [copyMatch, hc']
    exact sameStores_raiseStatus st
  · have hc' : matchChecks (withMem mi mo s) n d = none := hc
    obtain ⟨hlen, hdist, -⟩ := matchChecks_eq_none.1 hc
    rw [copyMatch, hc', ← ho.matchBytes_eq hdist n]
    exact sameStores_commitSymbol (matchBytes_length _ _ _ _ _) (checkLength_eq_none.1 hlen).1 s.work

/-- CopyLiteralRun reads `IN` from the cursor on and nothing of `OUT`. -/
theorem copyLiteralRun_sameStores (hi : AgreeAhead (decodeEnv s) lo mi s.inMem) (hw : lo ≤ s.work.inByte) {n : Nat}
    (h : copyLiteralRun n s = .next t) : SameStores mi mo s t (copyLiteralRun n (withMem mi mo s)) := by
  have ht : takeBytes (withMem mi mo s).inMem (decodeEnv (withMem mi mo s)) n (alignWork (withMem mi mo s).work) =
      takeBytes s.inMem (decodeEnv s) n (alignWork s.work) :=
    hi.takeBytes_eq n (hw.trans (inByte_le_alignWork s.work))
  rcases copyLiteralRun_eq n s with ⟨st, hc, hx⟩ | ⟨hc, st, hb, hx⟩ | ⟨hc, bs, w, hb, hx⟩ <;> rw [hx] at h <;> cases h
  · have hc' : literalChecks (withMem mi mo s) n = some st := hc
    rw [copyLiteralRun, hc']
    exact sameStores_raiseStatus st
  · have hc' : literalChecks (withMem mi mo s) n = none := hc
    rw [copyLiteralRun, hc', ht, hb]
    exact sameStores_raiseStatus st
  · have hc' : literalChecks (withMem mi mo s) n = none := hc
    rw [copyLiteralRun, hc', ht, hb]
    exact sameStores_commitSymbol (takeBytes_length hb) (checkLength_eq_none.1 (literalChecks_eq_none.1 hc).1).1 w

/-- CONT reads no memory: its value is in the instruction. -/
theorem execCont_sameStores {v : Word} (h : execCont v s = .next t) :
    SameStores mi mo s t (execCont v (withMem mi mo s)) := by
  rcases execCont_eq v s with ⟨st, hc, hx⟩ | ⟨w, hc, hx⟩ <;> rw [hx] at h <;> cases h
  · have hc' : contApply (decodeEnv (withMem mi mo s)) v.toNat (withMem mi mo s).work = .error st := hc
    rw [execCont, hc']
    exact sameStores_raiseStatus st
  · have hc' : contApply (decodeEnv (withMem mi mo s)) v.toNat (withMem mi mo s).work = .ok w := hc
    rw [execCont, hc']
    exact sameStores_of_frame rfl rfl

/-- The meaning of a symbol whose fields have been read. -/
theorem exec_symbol_sameStores (hi : AgreeAhead (decodeEnv s) lo mi s.inMem) (ho : AgreeLive s mo s.outMem)
    (hw : lo ≤ s.work.inByte) {i : Instr} (hslot : i.slot = .symbol) (h : exec i s = .next t) :
    SameStores mi mo s t (exec i (withMem mi mo s)) := by
  rcases operands_of_symbol s.format hslot with ⟨n, d, hop⟩ | ⟨n, hop⟩
  · rw [exec_of_matchOperands hop] at h
    rw [exec_of_matchOperands (s := withMem mi mo s) hop]
    exact copyMatch_sameStores ho h
  · rw [exec_of_literalOperand hop] at h
    rw [exec_of_literalOperand (s := withMem mi mo s) hop]
    exact copyLiteralRun_sameStores hi hw h

/-- A symbol's fields, read from the working copy, and its meaning. -/
theorem fetchSymbol_sameStores (hi : AgreeAhead (decodeEnv s) lo mi s.inMem) (ho : AgreeLive s mo s.outMem)
    (hw : lo ≤ s.work.inByte) (h : (fetchSymbol s).outcome = .next t) :
    SameStores mi mo s t (fetchSymbol (withMem mi mo s)).outcome := by
  have hp : runParse (withMem mi mo s).inMem (decodeEnv (withMem mi mo s)) (symbolParse (withMem mi mo s).format)
      (withMem mi mo s).work = runParse s.inMem (decodeEnv s) (symbolParse s.format) s.work := hi.runParse_eq _ hw
  rcases fetchSymbol_cases s with ⟨st, hr, hx⟩ | ⟨i, w, hr, hx⟩ <;> rw [hx] at h <;> rw [fetchSymbol, hp, hr]
  · cases h; exact sameStores_raiseStatus st
  · exact exec_symbol_sameStores (s := { s with work := w, fsm := fsmRun s.fsm (readEvents i) }) hi ho
      ((cursorInv_ahead _ _ lo).runParse (bitsOnly_symbolParse _) hw hr) ((gives_symbolParse _).runParse hr) h

/-- The continuation field before a symbol, and CONT. -/
theorem fetchCont_sameStores (hi : AgreeAhead (decodeEnv s) lo mi s.inMem) (hw : lo ≤ s.work.nextBnd)
    (h : (fetchCont s).outcome = .next t) : SameStores mi mo s t (fetchCont (withMem mi mo s)).outcome := by
  have hp : readCont (withMem mi mo s).inMem (decodeEnv (withMem mi mo s)) (withMem mi mo s).work =
      readCont s.inMem (decodeEnv s) s.work := hi.readCont_eq hw
  rcases fetchCont_cases s with ⟨st, hc, hx⟩ | ⟨hc, hx⟩ <;> rw [hx] at h <;> rw [fetchCont, hp, readCont, hc]
  · cases h; exact sameStores_raiseStatus st
  · exact execCont_sameStores h

/-- A turn of the loop. -/
theorem fetchTurn_sameStores (hi : AgreeAhead (decodeEnv s) s.inByte.toNat mi s.inMem) (ho : AgreeLive s mo s.outMem)
    (h : (fetchTurn s).outcome = .next t) : SameStores mi mo s t (fetchTurn (withMem mi mo s)).outcome := by
  have hl' : loopTest (withMem mi mo s) = loopTest s := rfl
  have hb' : onBoundary (decodeEnv (withMem mi mo s)) (copyWork (withMem mi mo s)) = onBoundary (decodeEnv s) (copyWork s) :=
    rfl
  rcases fetchTurn_cases s with ⟨st, hl, hx⟩ | ⟨hl, hb, hx⟩ | ⟨hl, hb, hx⟩ <;> rw [hx] at h <;>
    rw [fetchTurn, hl', hl]
  · cases h; exact sameStores_of_frame rfl rfl
  · simp only [hb', hb, if_true]
    simp only [onBoundary, Bool.and_eq_true, beq_iff_eq] at hb
    exact fetchCont_sameStores (s := beginSymbol s) hi hb.2.le h
  · simp only [hb', hb, Bool.false_eq_true, if_false]
    exact fetchSymbol_sameStores (s := beginSymbol s) hi ho le_rfl h

/-- A step of a DECODE reads `IN` from `IN_BYTE` up to `AVAIL_IN` and `OUT` at the live positions. -/
theorem step_sameStores (hinv : Inv s) (ha : s.activity = .decode ∨ s.activity = .symbol)
    (hi : AgreeAhead (decodeEnv s) s.inByte.toNat mi s.inMem) (ho : AgreeLive s mo s.outMem) (h : step s = .next t) :
    SameStores mi mo s t (step (withMem mi mo s)) := by
  rw [step_eq_outcome] at h ⊢
  rcases ha with ha | ha
  · rw [fetch_decode ha] at h
    rw [fetch_decode (s := withMem mi mo s) ha]
    exact fetchTurn_sameStores hi ho h
  · rw [fetch_symbol ha] at h
    rw [fetch_symbol (s := withMem mi mo s) ha]
    exact fetchSymbol_sameStores hi ho ((ReadsFrom.crossed ha).workInv hinv).1.base_le h

/-! ### A command taken up and a header on other memories -/

/-- A step that leaves `OUT`. -/
theorem sameOutcome_of_frame (ho : t.outMem = s.outMem) : SameOutcome mi mo s t (.next (withMem mi mo t)) :=
  ⟨[], by simp, ho, rfl⟩

theorem execInit_withMem (h : execInit s = .next t) : SameOutcome mi mo s t (execInit (withMem mi mo s)) := by
  have hl' : headerEnd (withMem mi mo s) = headerEnd s := rfl
  have ha' : (withMem mi mo s).arg1 = s.arg1 := rfl
  unfold execInit at h ⊢
  rw [hl', ha']
  split_ifs at h ⊢ <;> cases h
  · exact sameOutcome_raiseStatus (s := beginInit s) _
  · exact sameOutcome_of_frame rfl

theorem execDecode_withMem (h : execDecode s = .next t) : SameOutcome mi mo s t (execDecode (withMem mi mo s)) := by
  have hp' : (withMem mi mo s).phase = s.phase := rfl
  unfold execDecode at h ⊢
  rw [hp']
  split at h <;> cases h <;> exact sameOutcome_of_frame rfl

theorem execHdr_withMem {e : BitVec 6} {fr : BitVec 63} {a b : BitVec 6} {tr : Option Trail}
    (h : execHdr e fr a b tr s = .next t) : SameOutcome mi mo s t (execHdr e fr a b tr (withMem mi mo s)) := by
  have hk' : headerChecks a tr (withMem mi mo s) = headerChecks a tr s := rfl
  rcases execHdr_eq e fr a b tr s with ⟨st, hk, hx⟩ | ⟨hk, hx⟩ <;> rw [hx] at h <;> cases h <;> rw [execHdr, hk', hk]
  · exact sameOutcome_raiseStatus st
  · exact sameOutcome_of_frame rfl

/-- The commands (spec R23, R58). -/
theorem decodeCommand_eq_some {c : BitVec 2} {i : Instr} (h : decodeCommand c = some i) : i = .init ∨ i = .decode := by
  unfold decodeCommand at h; split_ifs at h <;> simp_all

theorem fetch_of_command (ha : s.activity = .idle) {i : Instr} (hc : decodeCommand s.cmd = some i) :
    fetch s = .run i (taken s) := by simp [fetch, ha, hc, taken]

theorem fetch_of_no_command (ha : s.activity = .idle) (hc : decodeCommand s.cmd = none) : fetch s = .stop (taken s) := by
  simp [fetch, ha, hc, taken]

/-- Taking up a command reads no memory (spec R36, R37). -/
theorem step_withMem_of_idle (ha : s.activity = .idle) (h : step s = .next t) :
    SameOutcome mi mo s t (step (withMem mi mo s)) := by
  cases hc : decodeCommand s.cmd with
  | none =>
    rw [step_of_stop (fetch_of_no_command ha hc)] at h
    rw [step_of_stop (fetch_of_no_command (s := withMem mi mo s) ha hc)]
    cases h; exact sameOutcome_of_frame rfl
  | some i =>
    rw [step_of_run (fetch_of_command ha hc)] at h
    rw [step_of_run (fetch_of_command (s := withMem mi mo s) ha hc)]
    rcases decodeCommand_eq_some hc with rfl | rfl
    · exact execInit_withMem (s := taken s) h
    · exact execDecode_withMem (s := taken s) h

/-- An INIT reads its header only (spec R71). -/
theorem step_withMem_of_init (hinv : Inv s) (ha : s.activity = .init)
    (hi : AgreeAhead (headerEnv s) s.arg2.toNat mi s.inMem) (h : step s = .next t) :
    SameOutcome mi mo s t (step (withMem mi mo s)) := by
  have hw : s.arg2.toNat ≤ s.work.inByte := by simp [(hinv.header ha).work, headerWork]
  have hp : runParse (withMem mi mo s).inMem (headerEnv (withMem mi mo s)) headerParse (withMem mi mo s).work =
      runParse s.inMem (headerEnv s) headerParse s.work := hi.runParse_eq _ hw
  rw [step_eq_outcome] at h ⊢
  rw [fetch_init ha] at h
  rw [fetch_init (s := withMem mi mo s) ha]
  rcases fetchHeader_cases s with ⟨st, hr, hx⟩ | ⟨i, w, hr, hx⟩ <;> rw [hx] at h <;> unfold fetchHeader <;> rw [hp, hr]
  · cases h; exact sameOutcome_raiseStatus st
  · obtain ⟨e, fr, a, b, tr, rfl, -⟩ := gives_headerParse.runParse hr
    exact execHdr_withMem (s := setWork w s) h

end

/-! ### The statements -/

/-- The header lies at its positions themselves: header mode has no window (spec R71). -/
theorem HeaderInv.agreeAhead {s : State} (h : HeaderInv s) {m : Memory}
    (hm : ∀ p, s.arg2.toNat ≤ p → p < s.arg2.toNat + s.arg3.toNat → m.read p = s.inMem.read p) :
    AgreeAhead (headerEnv s) s.arg2.toNat m s.inMem := by
  intro p hlo hp
  have hend : p < headerEnd s := hp
  have := h.fits
  have := s.arg1.isLt
  have hoff : offsetOf p (headerEnv s).inMask = p := offsetOf_all1 (by omega)
  rw [hoff]
  exact hm p hlo hend

/-- Settles O47: by the activity, from what the fetches and the meanings read of `IN`. -/
theorem inputReadSet : Obligations.InputReadSet := by
  intro s t m hinv h hm
  have hsame : SameOutcome m s.outMem s t (step (withMem m s.outMem s)) := by
    cases ha : s.activity <;> rw [ha] at hm
    case idle => exact step_withMem_of_idle ha h
    case init => exact step_withMem_of_init hinv ha ((hinv.header ha).agreeAhead hm) h
    case decode => exact (step_sameStores hinv (.inl ha) hm (fun _ _ _ => rfl) h).sameOutcome
    case symbol => exact (step_sameStores hinv (.inr ha) hm (fun _ _ _ => rfl) h).sameOutcome
  obtain ⟨p, -, hout, hx⟩ := hsame
  exact hx.trans (by rw [← hout]; rfl)

/-- In a DECODE the window of `OUT` stays (spec R11). -/
theorem outMask_of_decoding {s t : State} (ha : s.activity = .decode ∨ s.activity = .symbol) (h : step s = .next t) :
    t.outMask = s.outMask := by
  rcases sessionConstant s t h with ⟨hinit, -⟩ | ⟨-, -, -, -, -, -, hmask, -⟩
  · rcases ha with ha | ha <;> rw [ha] at hinit <;> contradiction
  · exact hmask

/-- Settles O49: the step stores the same bytes from `OUT_CUR` up, and those and the old live bytes make up the new ones. -/
theorem outputReadSet : Obligations.OutputReadSet := by
  intro s t m hinv ha hwf hm h
  have ho : AgreeLive s m s.outMem := hm
  obtain ⟨bs, hcur, hout, hx⟩ := step_sameStores (mi := s.inMem) hinv ha (fun _ _ _ => rfl) ho h
  have hin : t.inMem = s.inMem := (stepLeavesHostData s t h).1
  refine ⟨_, hx.trans (by rw [← hin]; rfl), fun q hq hlive => ?_⟩
  rw [hcur] at hq hlive
  rw [outMask_of_decoding ha h] at hlive ⊢
  rw [hout]
  exact ho.read_store hwf hinv.outMem bs hq hlive

end Sys2Proof.Machine

/-! The code of an instruction (O1, O2, O4). An instruction is its format with the fields, so the decoder is proved against
the encoder once per format, both ways: written fields are read, and read fields are the written ones. -/

namespace Sys2Proof

/-! ### An instruction and its format -/

/-- The slot of a format. -/
def View.slot : View → Slot
  | .short .. | .extended .. | .literal .. | .long .. => .symbol
  | .cont _ => .cont
  | .header .. => .header
  | .init | .decode => .command

/-- The slot of an instruction is its format's. -/
theorem Instr.slot_eq (i : Instr) : i.slot = i.view.slot := rfl

/-- The instruction of a format with its fields, as the decoder builds it. -/
def View.instr : View → Instr
  | .short idx x dn df => shortInstr idx.toNat x dn df
  | .extended idx e dn df => .smatchx idx e dn df
  | .literal idx x => literalInstr idx.toNat x
  | .long idx x dn df => longMatchInstr idx.toNat x dn df
  | .cont v => .cont v
  | .header e fr i o t => .hdr e fr i o t
  | .init => .init
  | .decode => .decode

/-- Nothing is lost in an instruction's format and fields. -/
theorem Instr.instr_view (i : Instr) : i.view.instr = i := by cases i <;> rfl

theorem view_shortInstr (idx : BitVec 4) (x : BitVec 4) (dn : BitVec 5) (df : BitVec 31) :
    (shortInstr idx.toNat x dn df).view = .short idx x dn df := by
  obtain ⟨idx⟩ := idx
  fin_cases idx <;> rfl

/-- Only indices below 32 are literal runs (spec R52). -/
theorem view_literalInstr {idx : BitVec 6} (h : idx.toNat < Config.longLitN) (x : BitVec 32) :
    (literalInstr idx.toNat x).view = .literal idx x := by
  obtain ⟨n, rfl⟩ : ∃ n : Fin 32, idx = BitVec.ofNat 6 n := ⟨⟨idx.toNat, h⟩, by simp⟩
  fin_cases n <;> rfl

/-- Only indices from 32 up are long matches (spec R52). -/
theorem view_longMatchInstr {idx : BitVec 6} (h : Config.longLitN ≤ idx.toNat) (x : BitVec 32) (dn : BitVec 5)
    (df : BitVec 31) : (longMatchInstr idx.toNat x dn df).view = .long idx x dn df := by
  obtain ⟨n, rfl⟩ : ∃ n : Fin 32, idx = BitVec.ofNat 6 (32 + n) :=
    ⟨⟨idx.toNat - 32, by omega⟩, by simp [Nat.add_sub_cancel' (show 32 ≤ idx.toNat from h)]⟩
  fin_cases n <;> rfl

/-- A well-formed format with its fields is that of its instruction. -/
theorem View.view_instr {f : Format} {v : View} (h : v.wf f = true) : v.instr.view = v := by
  cases v with
  | short idx x dn df => exact view_shortInstr idx x dn df
  | literal idx x =>
    simp only [View.wf, Bool.and_eq_true, decide_eq_true_eq] at h
    obtain ⟨hidx, -⟩ := h
    exact view_literalInstr hidx x
  | long idx x dn df =>
    simp only [View.wf, Bool.and_eq_true, decide_eq_true_eq] at h
    obtain ⟨⟨hidx, -⟩, -⟩ := h
    exact view_longMatchInstr hidx x dn df
  | _ => rfl

/-! ### The fields of a well-formed ROM -/

/-- A well-formed short entry has at most 4 extra bits (spec R55). -/
theorem short_extraBits_le {f : Format} (h : f.romWf = true) (idx : BitVec 4) : (f.short idx).extraBits.toNat ≤ 4 := by
  simp only [Format.romWf, Bool.and_eq_true, List.all_eq_true, decide_eq_true_eq] at h
  exact (h.1 _ (by simp [Format.short, Vector.get])).1

/-- A well-formed long entry has at most 32 extra bits (spec R55). -/
theorem long_extraBits_le {f : Format} (h : f.romWf = true) (idx : BitVec 6) : (f.long idx).extraBits.toNat ≤ 32 := by
  simp only [Format.romWf, Bool.and_eq_true, List.all_eq_true, decide_eq_true_eq] at h
  exact (h.2 _ (by simp [Format.long, Vector.get])).1

/-! ### Written fields are read -/

section
variable {α : Type}

/-- The bits of a field in two parts. -/
theorem natBits_add (m n v : Nat) : natBits (m + n) v = natBits m v ++ natBits n (v / 2 ^ m) := by
  induction m generalizing v with
  | zero => simp [natBits]
  | succ m ih => rw [Nat.succ_add, natBits, ih, natBits, List.cons_append, Nat.div_div_eq_div_mul, Nat.pow_succ']

/-- The skipped pad (spec R85). -/
theorem runBits_align (k : Parse α) {n pos : Nat} (rest : List Bool) (h : n = (8 - pos % 8) % 8) :
    (Parse.align k).runBits pos (List.replicate n false ++ rest) = k.runBits (pos + n) rest := by
  subst h
  simp [Parse.runBits]

/-- A written number is read back, in two parts where it is wider than one `take` (spec R84). -/
theorem runBits_takeWide {n v : Nat} (k : Nat → Parse α) (pos : Nat) (rest : List Bool) (h : v < 2 ^ n) :
    (Parse.takeWide n k).runBits pos (natBits n v ++ rest) = (k v).runBits (pos + n) rest := by
  by_cases hn : n ≤ Config.takeMax
  · rw [← runBits_takeOpt k pos rest h, Parse.takeWide, Parse.takeOpt, if_pos hn]
  · obtain ⟨m, rfl⟩ := Nat.exists_eq_add_of_lt (Nat.lt_of_not_le hn)
    rw [Nat.add_assoc] at h ⊢
    have hhi : v / 2 ^ Config.takeMax < 2 ^ (m + 1) := Nat.div_lt_of_lt_mul (by rwa [← Nat.pow_add])
    rw [Parse.takeWide, if_neg (by omega), if_neg (by omega), Nat.add_sub_cancel_left, natBits_add, List.append_assoc]
    simp only [Parse.runBits, takeBits_natBits, Nat.mod_eq_of_lt hhi, Nat.mod_add_div', Nat.add_assoc]

/-- Written bytes are read as their little-endian number (spec R33). -/
theorem runBits_bytesLE {n v : Nat} (k : Nat → Parse α) (pos : Nat) (rest : List Bool) (h : v < 2 ^ (8 * n)) :
    (Parse.bytesLE n k).runBits pos (natBits (8 * n) v ++ rest) = (k v).runBits (pos + 8 * n) rest := by
  induction n generalizing k pos v with
  | zero =>
    obtain rfl : v = 0 := by simpa using h
    rfl
  | succ n ih =>
    rw [Nat.mul_succ, Nat.add_comm (8 * n)] at h ⊢
    have hhi : v / 2 ^ 8 < 2 ^ (8 * n) := Nat.div_lt_of_lt_mul (by rwa [← Nat.pow_add])
    simp only [natBits_add, List.append_assoc, Parse.bytesLE, Parse.runBits, takeBits_natBits, ih _ _ hhi]
    rw [show 256 = 2 ^ 8 from rfl, Nat.mod_add_div, Nat.add_assoc]

end

/-! ### Decoding an encoded instruction -/

/-- A distance's fields are in range. -/
theorem distanceWf_iff {dn : BitVec 5} {df : BitVec 31} : distanceWf dn df = true ↔ df.toNat < 2 ^ dn.toNat := by
  simp [distanceWf]

section
variable {f : Format} (rest : List Bool)

/-- A short symbol whose entry is no sentinel (spec R90, R91). -/
theorem symbolParse_runBits_short {idx x : BitVec 4} {dn : BitVec 5} {df : BitVec 31}
    (hw : (View.short idx x dn df).wf f = true) :
    (symbolParse f).runBits 0 ((View.short idx x dn df).encode f ++ rest) = .ok (shortInstr idx.toNat x dn df, rest) := by
  simp only [View.wf, Bool.and_eq_true, Bool.not_eq_true', decide_eq_true_eq, distanceWf_iff] at hw
  obtain ⟨⟨hsent, hx⟩, hd⟩ := hw
  simp only [View.encode, List.append_assoc, symbolParse]
  rw [runBits_take _ _ _ (by decide), if_pos rfl, runBits_take _ _ _ idx.isLt, BitVec.ofNat_toNat, BitVec.setWidth_eq,
    if_neg (by simp [hsent]), runBits_takeOpt _ _ _ hx, runBits_readDistance _ _ _ _ _ hd]
  simp [Parse.runBits]

/-- A short symbol whose entry triggers ExtendedRun (spec R92, R93). -/
theorem symbolParse_runBits_extended {idx e : BitVec 4} {dn : BitVec 5} {df : BitVec 31}
    (hw : (View.extended idx e dn df).wf f = true) :
    (symbolParse f).runBits 0 ((View.extended idx e dn df).encode f ++ rest) = .ok (.smatchx idx e dn df, rest) := by
  simp only [View.wf, Bool.and_eq_true, distanceWf_iff] at hw
  obtain ⟨hsent, hd⟩ := hw
  simp only [View.encode, List.append_assoc, symbolParse]
  rw [runBits_take _ _ _ (by decide), if_pos rfl, runBits_take _ _ _ idx.isLt, BitVec.ofNat_toNat, BitVec.setWidth_eq,
    if_pos hsent, extendedRun, Config.extBits, runBits_take _ _ _ e.isLt, runBits_readDistance _ _ _ _ _ hd]
  simp [Parse.runBits]

/-- The coded fields of a literal run (spec R95). -/
theorem symbolParse_runBits_literal {idx : BitVec 6} {x : BitVec 32} (hw : (View.literal idx x).wf f = true) :
    (symbolParse f).runBits 0 ((View.literal idx x).encode f ++ rest) = .ok (literalInstr idx.toNat x, rest) := by
  simp only [View.wf, Bool.and_eq_true, decide_eq_true_eq] at hw
  obtain ⟨hidx, hx⟩ := hw
  simp only [View.encode, List.append_assoc, symbolParse]
  rw [runBits_take _ _ _ (by decide), if_neg (by decide), runBits_take _ _ _ idx.isLt, BitVec.ofNat_toNat,
    BitVec.setWidth_eq, runBits_takeOpt _ _ _ hx, if_pos hidx]
  simp [Parse.runBits]

/-- A long match (spec R99). -/
theorem symbolParse_runBits_long {idx : BitVec 6} {x : BitVec 32} {dn : BitVec 5} {df : BitVec 31}
    (hw : (View.long idx x dn df).wf f = true) :
    (symbolParse f).runBits 0 ((View.long idx x dn df).encode f ++ rest) =
      .ok (longMatchInstr idx.toNat x dn df, rest) := by
  simp only [View.wf, Bool.and_eq_true, decide_eq_true_eq, distanceWf_iff] at hw
  obtain ⟨⟨hidx, hx⟩, hd⟩ := hw
  simp only [View.encode, List.append_assoc, symbolParse]
  rw [runBits_take _ _ _ (by decide), if_neg (by decide), runBits_take _ _ _ idx.isLt, BitVec.ofNat_toNat,
    BitVec.setWidth_eq, runBits_takeOpt _ _ _ hx, if_neg (Nat.not_lt.2 hidx), runBits_readDistance _ _ _ _ _ hd]
  simp [Parse.runBits]

end

/-- The encoder's bits of a well-formed header are read as that header (spec R51, R72 to R74). -/
theorem headerParse_runBits_encode (f : Format) (e : BitVec 6) (fr : BitVec 63) (i o : BitVec 6) (t : Option Trail)
    (rest : List Bool) (hfr : fr.toNat < 2 ^ e.toNat) (ht : trailWf i t = true) :
    headerParse.runBits 0 ((View.header e fr i o t).encode f ++ rest) = .ok (.hdr e fr i o t, rest) := by
  simp only [View.encode, List.append_assoc, headerParse]
  rw [runBits_take _ _ _ e.isLt, runBits_takeWide _ _ _ hfr, runBits_take _ _ _ i.isLt, runBits_take _ _ _ o.isLt]
  cases t with
  | none =>
    simp only [trailWf, Bool.or_eq_true, decide_eq_true_eq] at ht
    simp [if_pos ht, Parse.runBits, encodeTrail]
  | some t =>
    simp only [trailWf, Bool.and_eq_true, decide_eq_true_eq] at ht
    obtain ⟨⟨hmin, hmax⟩, hv⟩ := ht
    rw [if_neg (by omega), encodeTrail]
    simp only [List.append_assoc]
    rw [runBits_take _ _ _ t.lenb.isLt, runBits_align _ _ (by omega), runBits_bytesLE _ _ _ hv]
    simp [Parse.runBits]

/-- The encoder's bits of a well-formed format are read as its instruction. -/
theorem decodeBits_encode {f : Format} {v : View} (rest : List Bool) (hw : v.wf f = true) :
    decodeBits f v.slot (v.encode f ++ rest) = .ok (v.instr, rest) := by
  cases v with
  | short => exact symbolParse_runBits_short rest hw
  | extended => exact symbolParse_runBits_extended rest hw
  | literal => exact symbolParse_runBits_literal rest hw
  | long => exact symbolParse_runBits_long rest hw
  | cont v =>
    simp only [View.wf, decide_eq_true_eq] at hw
    simp [View.slot, decodeBits, contParse, View.encode, runBits_bytesLE _ _ _ hw, Parse.runBits, View.instr]
  | header e fr i o t =>
    simp only [View.wf, Bool.and_eq_true, decide_eq_true_eq] at hw
    obtain ⟨hfr, ht⟩ := hw
    exact headerParse_runBits_encode f e fr i o t rest hfr ht
  | init | decode => simp [View.slot, decodeBits, View.encode, takeBits_natBits, decodeCommand, View.instr]

/-- Settles O1: by format, each field the encoder writes is the field the decoder reads. -/
theorem decodeOfEncode : Obligations.DecodeOfEncode := by
  intro f i rest hw
  have h := decodeBits_encode rest hw
  rwa [Instr.instr_view] at h

/-! ### Read fields are the written ones -/

section
variable {α : Type} {n w pos : Nat} {k : Nat → Parse α} {bs rest : List Bool} {a : α}

/-- A field that was read, as the operand of `w` bits that holds it. -/
theorem runBits_take_eq_ok (hn : n ≤ w) (h : (Parse.take n k).runBits pos bs = .ok (a, rest)) :
    ∃ (x : BitVec w) (r : List Bool), x.toNat < 2 ^ n ∧ bs = natBits n x.toNat ++ r ∧
      (k x.toNat).runBits (pos + n) r = .ok (a, rest) := by
  rw [Parse.runBits] at h
  cases ht : takeBits n bs with
  | none => simp [ht] at h
  | some q =>
    obtain ⟨v, r⟩ := q
    obtain ⟨hv, hbs⟩ := takeBits_eq_some ht
    have hx : (BitVec.ofNat w v).toNat = v :=
      Nat.mod_eq_of_lt (hv.trans_le (Nat.pow_le_pow_right (by decide) hn))
    exact ⟨BitVec.ofNat w v, r, by rwa [hx], by rwa [hx], by simpa [ht, hx] using h⟩

/-- A field that may be absent, as the operand that holds it. -/
theorem runBits_takeOpt_eq_ok (hn : n ≤ w) (h : (Parse.takeOpt n k).runBits pos bs = .ok (a, rest)) :
    ∃ (x : BitVec w) (r : List Bool), x.toNat < 2 ^ n ∧ bs = natBits n x.toNat ++ r ∧
      (k x.toNat).runBits (pos + n) r = .ok (a, rest) := by
  unfold Parse.takeOpt at h
  split at h
  case isTrue h0 =>
    subst h0
    exact ⟨0, bs, by simp, rfl, by simpa using h⟩
  case isFalse => exact runBits_take_eq_ok hn h

/-- The fields of a distance that was read. -/
theorem runBits_readDistance_eq_ok {k : BitVec 5 → BitVec 31 → Parse α}
    (h : (readDistance k).runBits pos bs = .ok (a, rest)) :
    ∃ (dn : BitVec 5) (df : BitVec 31) (r : List Bool), distanceWf dn df = true ∧ bs = encodeDistance dn df ++ r ∧
      (k dn df).runBits (pos + 5 + dn.toNat) r = .ok (a, rest) := by
  obtain ⟨dn, r1, -, hb, h⟩ := runBits_take_eq_ok (w := 5) le_rfl h
  obtain ⟨df, r2, hdf, hb1, h⟩ := runBits_takeOpt_eq_ok (w := 31) (by omega) h
  exact ⟨dn, df, r2, distanceWf_iff.2 hdf, by simp [encodeDistance, hb, hb1], by simpa using h⟩

end

/-- Bits that decode to a symbol are the encoding of a well-formed format of a symbol (spec R52, R55, R90). -/
theorem symbolParse_runBits_eq_ok {f : Format} {bs rest : List Bool} {i : Instr} (hrom : f.romWf = true)
    (h : (symbolParse f).runBits 0 bs = .ok (i, rest)) :
    ∃ v : View, i = v.instr ∧ v.slot = .symbol ∧ v.wf f = true ∧ bs = v.encode f ++ rest := by
  obtain ⟨sel, r1, -, hb, h⟩ := runBits_take_eq_ok (w := 1) le_rfl h
  split at h
  case isTrue hsel =>
    obtain ⟨idx, r2, -, hb1, h⟩ := runBits_take_eq_ok (w := 4) le_rfl h
    simp only [BitVec.ofNat_toNat, BitVec.setWidth_eq] at h
    split at h
    case isTrue hsent =>
      obtain ⟨e, r3, -, hb2, h⟩ := runBits_take_eq_ok (w := 4) le_rfl h
      obtain ⟨dn, df, r4, hd, hb3, h⟩ := runBits_readDistance_eq_ok h
      obtain ⟨rfl, rfl⟩ := by simpa [Parse.runBits] using h
      exact ⟨.extended idx e dn df, rfl, rfl, by simp [View.wf, hsent, hd],
        by simp [View.encode, hsel, hb, hb1, hb2, hb3]⟩
    case isFalse hsent =>
      obtain ⟨x, r3, hx, hb2, h⟩ := runBits_takeOpt_eq_ok (short_extraBits_le hrom idx) h
      obtain ⟨dn, df, r4, hd, hb3, h⟩ := runBits_readDistance_eq_ok h
      obtain ⟨rfl, rfl⟩ := by simpa [Parse.runBits] using h
      exact ⟨.short idx x dn df, rfl, rfl, by simp [View.wf, hsent, hx, hd],
        by simp [View.encode, hsel, hb, hb1, hb2, hb3]⟩
  case isFalse hsel =>
    have hsel : sel.toNat = 1 := by omega
    obtain ⟨idx, r2, -, hb1, h⟩ := runBits_take_eq_ok (w := 6) le_rfl h
    simp only [BitVec.ofNat_toNat, BitVec.setWidth_eq] at h
    obtain ⟨x, r3, hx, hb2, h⟩ := runBits_takeOpt_eq_ok (long_extraBits_le hrom idx) h
    simp only [BitVec.ofNat_toNat, BitVec.setWidth_eq] at h
    split at h
    case isTrue hidx =>
      obtain ⟨rfl, rfl⟩ := by simpa [Parse.runBits] using h
      exact ⟨.literal idx x, rfl, rfl, by simp [View.wf, hidx, hx], by simp [View.encode, hsel, hb, hb1, hb2]⟩
    case isFalse hidx =>
      obtain ⟨dn, df, r4, hd, hb3, h⟩ := runBits_readDistance_eq_ok h
      obtain ⟨rfl, rfl⟩ := by simpa [Parse.runBits] using h
      exact ⟨.long idx x dn df, rfl, rfl, by simp [View.wf, Nat.le_of_not_lt hidx, hx, hd],
        by simp [View.encode, hsel, hb, hb1, hb2, hb3]⟩

/-- Settles O2: the format that was read is that of the instruction. -/
theorem symbolHasOneCode : Obligations.SymbolHasOneCode := by
  intro f bs rest i hrom h
  obtain ⟨v, rfl, hs, hw, hb⟩ := symbolParse_runBits_eq_ok hrom h
  rw [Instr.slot_eq, Instr.wf, encode, View.view_instr hw]
  exact ⟨hs, hw, hb⟩

/-! ### The length of a code -/

/-- The bits of every format lie within its bounds (spec R60). -/
theorem codeLength_within (v : View) : Laws.CodeLength.Within v := by
  cases v with
  | short idx x dn df => exact Laws.CodeLength.short idx x dn df
  | extended idx e dn df => exact Laws.CodeLength.extended idx e dn df
  | literal idx x => exact Laws.CodeLength.literal idx x
  | long idx x dn df => exact Laws.CodeLength.long idx x dn df
  | cont v => exact Laws.CodeLength.cont v
  | header e fr i o t => exact Laws.CodeLength.header e fr i o t
  | init => exact Laws.CodeLength.init
  | decode => exact Laws.CodeLength.decode

/-- Settles O4: the bounds of an instruction are those of its format. -/
theorem codeLengthBounds : Obligations.CodeLengthBounds := fun i => codeLength_within i.view

end Sys2Proof

/-! The reader on the bits ahead of the cursor: up to the first boundary, or the first byte that is not there, `runParse` over
`IN` is `Parse.runBits` over `bitsAhead`. The fields of a header are read this way (O18, O32). -/

namespace Sys2Proof.Machine

/-! ### A cursor moved by bits -/

section
variable {w : Work}

@[simp] theorem bitPos_advance (w : Work) (n : Nat) : bitPos (advance w n) = bitPos w + n := by
  simp only [bitPos, advance]; omega

theorem bitOff_advance (w : Work) (n : Nat) : (advance w n).bitOff = (w.bitOff + n) % 8 := by
  simp only [bitPos, advance]; omega

theorem advance_zero (h : w.bitOff < 8) : advance w 0 = w := by
  have hdiv : (8 * w.inByte + w.bitOff) / 8 = w.inByte := by omega
  have hmod : (8 * w.inByte + w.bitOff) % 8 = w.bitOff := by omega
  simp [advance, bitPos, hdiv, hmod]

theorem advance_advance (w : Work) (a b : Nat) : advance (advance w a) b = advance w (a + b) := by
  rw [advance, bitPos_advance, Nat.add_assoc]
  rfl

/-- The move by one bit is `take`'s (spec R83). -/
theorem advanceBit_eq (h : w.bitOff < 8) : advanceBit w = advance w 1 := by
  unfold advanceBit advance bitPos
  split
  case isTrue h7 =>
    rw [show (8 * w.inByte + w.bitOff + 1) / 8 = w.inByte + 1 by omega,
      show (8 * w.inByte + w.bitOff + 1) % 8 = 0 by omega]
  case isFalse h7 =>
    rw [show (8 * w.inByte + w.bitOff + 1) / 8 = w.inByte by omega,
      show (8 * w.inByte + w.bitOff + 1) % 8 = w.bitOff + 1 by omega]

/-- The move to the next byte boundary is the pad's length (spec R85). -/
theorem alignWork_eq (h : w.bitOff < 8) : alignWork w = advance w ((8 - w.bitOff % 8) % 8) := by
  unfold alignWork
  split
  case isTrue h0 => simp [h0, advance_zero h]
  case isFalse h0 =>
    unfold advance bitPos
    rw [show (8 * w.inByte + w.bitOff + (8 - w.bitOff % 8) % 8) / 8 = w.inByte + 1 by omega,
      show (8 * w.inByte + w.bitOff + (8 - w.bitOff % 8) % 8) % 8 = 0 by omega]

end

/-! ### The bits ahead -/

@[simp] theorem streamBits_length (m : Memory) (mask p n : Nat) : (streamBits m mask p n).length = n := by
  induction n generalizing p with
  | zero => rfl
  | succ n ih => simp [streamBits, ih]

theorem streamBits_drop (m : Memory) (mask p k n : Nat) :
    (streamBits m mask p n).drop k = streamBits m mask (p + k) (n - k) := by
  induction k generalizing p n with
  | zero => rfl
  | succ k ih =>
    cases n with
    | zero => simp [streamBits]
    | succ n => rw [streamBits, List.drop_succ_cons, ih, Nat.succ_sub_succ, Nat.add_right_comm, Nat.add_assoc]

section
variable {m : Memory} {e : Env} {w : Work}

/-- The limit of a read moves with the boundary only. -/
@[simp] theorem readLimit_advance (e : Env) (w : Work) (n : Nat) : readLimit e (advance w n) = readLimit e w := rfl

theorem bitsAhead_length (m : Memory) (e : Env) (w : Work) :
    (bitsAhead m e w).length = 8 * readLimit e w - bitPos w := streamBits_length ..

/-- The bits ahead of a cursor moved by bits. -/
theorem bitsAhead_advance (m : Memory) (e : Env) (w : Work) (n : Nat) :
    bitsAhead m e (advance w n) = (bitsAhead m e w).drop n := by
  unfold bitsAhead
  rw [streamBits_drop, readLimit_advance, bitPos_advance, Nat.sub_sub]

/-- A byte below the limit of a read is fetched without a crossing. -/
theorem inByte_of_lt_readLimit (h : w.inByte < readLimit e w) : InByte m e w (m.read (offsetOf w.inByte e.inMask)) := by
  simp only [readLimit] at h
  refine ⟨?_, byteChecks_eq_none.2 ?_, rfl⟩
  · cases hc : e.chunked with
    | false => exact onBoundary_of_not_chunked hc
    | true =>
      simp only [hc, if_true] at h
      have : w.inByte ≠ w.nextBnd := by split at h <;> omega
      simp [onBoundary, this]
  · split_ifs at h <;> refine ⟨?_, ?_, ?_⟩ <;> omega

/-- Where bits are ahead, one turn of `take` reads the first of them. -/
theorem takeBit_of_bitsAhead_eq_cons (hw : w.bitOff < 8) {b : Bool} {bs : List Bool} (h : bitsAhead m e w = b :: bs) :
    takeBit m e w = .ok (b.toNat, advance w 1) ∧ bitsAhead m e (advance w 1) = bs := by
  have hlen := congrArg List.length h
  rw [bitsAhead_length, List.length_cons, bitPos] at hlen
  refine ⟨?_, by rw [bitsAhead_advance, h]; rfl⟩
  have hin := inByte_of_lt_readLimit (m := m) (e := e) (w := w) (by omega)
  have hbit : b = (m.read (offsetOf w.inByte e.inMask)).toNat.testBit w.bitOff := by
    have hhead := congrArg List.head? h
    obtain ⟨k, hk⟩ : ∃ k, 8 * readLimit e w - bitPos w = k + 1 := ⟨_, hlen⟩
    rw [bitsAhead, hk, streamBits, bitPos] at hhead
    simpa [show (8 * w.inByte + w.bitOff) / 8 = w.inByte by omega,
      show (8 * w.inByte + w.bitOff) % 8 = w.bitOff by omega] using hhead.symm
  rw [takeBit, hin.fetchByte, hbit, ← advanceBit_eq hw, Nat.toNat_testBit]
  simp only [Nat.shiftRight_eq_div_pow]

/-- A field whose bits are ahead is read as they are (spec R83). -/
theorem take_of_takeBits {n v : Nat} {rest : List Bool} (hw : w.bitOff < 8)
    (h : takeBits n (bitsAhead m e w) = some (v, rest)) :
    take m e n w = .ok (v, advance w n) ∧ rest = bitsAhead m e (advance w n) := by
  induction n generalizing w v with
  | zero =>
    simp only [takeBits, Option.some.injEq, Prod.mk.injEq] at h
    obtain ⟨rfl, rfl⟩ := h
    rw [advance_zero hw]
    exact ⟨rfl, rfl⟩
  | succ n ih =>
    cases hb : bitsAhead m e w with
    | nil => simp [hb, takeBits] at h
    | cons b bs =>
      obtain ⟨hbit, rfl⟩ := takeBit_of_bitsAhead_eq_cons hw hb
      rw [hb, takeBits] at h
      cases ht : takeBits n (bitsAhead m e (advance w 1)) with
      | none => simp [ht] at h
      | some q =>
        obtain ⟨u, r⟩ := q
        simp only [ht, Option.some.injEq, Prod.mk.injEq] at h
        obtain ⟨rfl, rfl⟩ := h
        obtain ⟨htake, hrest⟩ := ih (by rw [bitOff_advance]; omega) ht
        rw [advance_advance, Nat.add_comm 1] at htake hrest
        exact ⟨by rw [take, hbit]; simp only [htake], hrest⟩

/-- A field whose bits end too early fails as the fetch behind them does (spec R82). -/
theorem take_of_takeBits_none {n : Nat} {st : Status} (hw : w.bitOff < 8) (h : takeBits n (bitsAhead m e w) = none)
    (hend : fetchByte m e (advance w (bitsAhead m e w).length) = .error st) : take m e n w = .error st := by
  induction n generalizing w with
  | zero => simp [takeBits] at h
  | succ n ih =>
    cases hb : bitsAhead m e w with
    | nil =>
      rw [hb, List.length_nil, advance_zero hw] at hend
      rw [take, takeBit, hend]
    | cons b bs =>
      obtain ⟨hbit, rfl⟩ := takeBit_of_bitsAhead_eq_cons hw hb
      rw [hb, List.length_cons, Nat.add_comm, ← advance_advance] at hend
      rw [takeBits_eq_none, hb, List.length_cons] at h
      have htake := ih (by rw [bitOff_advance]; omega) (takeBits_eq_none.2 (by omega)) hend
      rw [take, hbit]
      simp only [htake]

/-- What was read is no longer than what was ahead. -/
theorem length_le_of_takeBits {n v : Nat} {bs rest : List Bool} (h : takeBits n bs = some (v, rest)) : n ≤ bs.length := by
  by_contra hlt
  rw [takeBits_eq_none.2 (by omega)] at h
  contradiction

/-- A whole byte whose bits are ahead of an aligned cursor is read as they are (spec R86). -/
theorem takeByte_of_takeBits {v : Nat} {rest : List Bool} (h0 : w.bitOff = 0)
    (h : takeBits 8 (bitsAhead m e w) = some (v, rest)) :
    ∃ b : Byte, b.toNat = v ∧ takeByte m e w = .ok (b, advance w 8) ∧ rest = bitsAhead m e (advance w 8) := by
  obtain ⟨htake, hrest⟩ := take_of_takeBits (by omega) h
  have hlen := length_le_of_takeBits h
  rw [bitsAhead_length, bitPos] at hlen
  have hin := inByte_of_lt_readLimit (m := m) (e := e) (w := w) (by omega)
  have hbyte := (hin.take (k := 7) (by omega)).symm.trans htake
  simp only [h0, Nat.shiftRight_zero, Except.ok.injEq, Prod.mk.injEq] at hbyte
  obtain ⟨hv, hw⟩ := hbyte
  refine ⟨_, hv, ?_, hrest⟩
  rw [takeByte, hin.fetchByte, ← hw]
  simp [h0]

/-- A whole byte fails as its fetch does. -/
theorem takeByte_of_takeBits_none {st : Status} (h0 : w.bitOff = 0) (h : takeBits 8 (bitsAhead m e w) = none)
    (hend : fetchByte m e (advance w (bitsAhead m e w).length) = .error st) : takeByte m e w = .error st := by
  rw [takeBits_eq_none, bitsAhead_length, bitPos] at h
  rw [bitsAhead_length, bitPos, show 8 * readLimit e w - (8 * w.inByte + w.bitOff) = 0 by omega,
    advance_zero (by omega)] at hend
  rw [takeByte, hend]

end

/-! ### Descriptions -/

/-- A description reads whole bytes only where the cursor is aligned; `pos` counts the bits from a byte boundary. -/
inductive ByteAligned {α : Type} : Nat → Parse α → Prop where
  | done {pos : Nat} {a : α} : ByteAligned pos (.done a)
  | take {pos n : Nat} {k : Nat → Parse α} (h : ∀ v, ByteAligned (pos + n) (k v)) : ByteAligned pos (.take n k)
  | align {pos : Nat} {k : Parse α} (h : ByteAligned (pos + (8 - pos % 8) % 8) k) : ByteAligned pos (.align k)
  | byte {pos : Nat} {k : Nat → Parse α} (h0 : pos % 8 = 0) (h : ∀ v, ByteAligned (pos + 8) (k v)) :
      ByteAligned pos (.byte k)

section
variable {α : Type} {m : Memory} {e : Env}

/-- The cursor of a read: a bit of its byte, and where it is inside a byte, that byte is below the limit. -/
structure Ahead (e : Env) (w : Work) (pos : Nat) : Prop where
  bitOff : w.bitOff = pos % 8
  inside : w.bitOff ≠ 0 → w.inByte < readLimit e w

theorem Ahead.lt {w : Work} {pos : Nat} (h : Ahead e w pos) : w.bitOff < 8 := by have := h.bitOff; omega

/-- A move over bits that are ahead keeps the cursor such. -/
theorem Ahead.advance {w : Work} {pos n : Nat} (h : Ahead e w pos) (hn : n ≤ (bitsAhead m e w).length) :
    Ahead e (advance w n) (pos + n) := by
  have h8 := h.bitOff
  refine ⟨by rw [bitOff_advance]; omega, fun hne => ?_⟩
  rw [bitOff_advance] at hne
  rw [bitsAhead_length] at hn
  rw [readLimit_advance]
  have hin := h.inside
  simp only [Machine.advance, bitPos] at hn ⊢
  omega

/-- The pad that an alignment skips is ahead. -/
theorem Ahead.pad_le {w : Work} {pos : Nat} (h : Ahead e w pos) : (8 - pos % 8) % 8 ≤ (bitsAhead m e w).length := by
  rw [bitsAhead_length, bitPos]
  have h8 := h.bitOff
  have hin := h.inside
  omega

/-- Where the bits ahead end does not depend on how many of them have been read. -/
theorem advance_length_of_le {w : Work} {n : Nat} (hn : n ≤ (bitsAhead m e w).length) :
    advance (advance w n) (bitsAhead m e (advance w n)).length = advance w (bitsAhead m e w).length := by
  rw [advance_advance, bitsAhead_advance, List.length_drop, Nat.add_sub_cancel' hn]

/-- The description answers `a` from bits ahead of the cursor and leaves `rest` of them. -/
def ReadsAhead (m : Memory) (e : Env) (p : Parse α) (w : Work) (a : α) (rest : List Bool) : Prop :=
  ∃ n, n ≤ (bitsAhead m e w).length ∧ runParse m e p w = .ok (a, advance w n) ∧ rest = (bitsAhead m e w).drop n

/-- The number of bits read is what is left of those ahead. -/
theorem ReadsAhead.runParse {p : Parse α} {w : Work} {a : α} {rest : List Bool} (h : ReadsAhead m e p w a rest) :
    Machine.runParse m e p w = .ok (a, Machine.advance w ((bitsAhead m e w).length - rest.length)) := by
  obtain ⟨n, hn, hp, rfl⟩ := h
  rw [hp, List.length_drop, Nat.sub_sub_self hn]

/-- A first field and then the rest of a description. -/
theorem ReadsAhead.of_advance {p q : Parse α} {w : Work} {n : Nat} {a : α} {rest : List Bool}
    (hn : n ≤ (bitsAhead m e w).length) (hp : Machine.runParse m e p w = Machine.runParse m e q (Machine.advance w n))
    (h : ReadsAhead m e q (Machine.advance w n) a rest) : ReadsAhead m e p w a rest := by
  obtain ⟨k, hk, hq, rfl⟩ := h
  rw [bitsAhead_advance, List.length_drop] at hk
  refine ⟨n + k, by omega, by rw [hp, hq, advance_advance], by rw [bitsAhead_advance, List.drop_drop]⟩

/-- A description that the bits ahead satisfy answers what they decode to. -/
theorem readsAhead_of_runBits {p : Parse α} {w : Work} {pos : Nat} {a : α} {rest : List Bool} (hp : ByteAligned pos p)
    (hw : Ahead e w pos) (h : p.runBits pos (bitsAhead m e w) = .ok (a, rest)) : ReadsAhead m e p w a rest := by
  induction hp generalizing w with
  | done =>
    obtain ⟨rfl, rfl⟩ := by simpa [Parse.runBits] using h
    exact ⟨0, Nat.zero_le _, by simp [runParse, advance_zero hw.lt], rfl⟩
  | @take pos n k _ ih =>
    rw [Parse.runBits] at h
    cases ht : takeBits n (bitsAhead m e w) with
    | none => simp [ht] at h
    | some q =>
      obtain ⟨htake, hrest⟩ := take_of_takeBits hw.lt ht
      have hn := length_le_of_takeBits ht
      simp only [ht, hrest] at h
      exact .of_advance hn (by rw [runParse, htake]) (ih q.1 (hw.advance hn) h)
  | align _ ih =>
    rw [Parse.runBits, ← bitsAhead_advance] at h
    have hpad := hw.pad_le (m := m)
    refine .of_advance hpad ?_ (ih (hw.advance hpad) h)
    rw [runParse, alignWork_eq hw.lt, hw.bitOff, Nat.mod_mod]
  | byte h0 _ ih =>
    rw [Parse.runBits] at h
    cases ht : takeBits 8 (bitsAhead m e w) with
    | none => simp [ht] at h
    | some q =>
      obtain ⟨b, hb, htake, hrest⟩ := takeByte_of_takeBits (hw.bitOff.trans h0) ht
      have hn := length_le_of_takeBits ht
      simp only [ht, hrest, ← hb] at h
      exact .of_advance hn (by rw [runParse, htake]) (ih b.toNat (hw.advance hn) h)

/-- A description that the bits ahead do not suffice for fails as the fetch behind them does (spec R82). -/
theorem runParse_of_runBits_error {p : Parse α} {w : Work} {pos : Nat} {r : Reject} {st : Status} (hp : ByteAligned pos p)
    (hw : Ahead e w pos) (h : p.runBits pos (bitsAhead m e w) = .error r)
    (hend : fetchByte m e (advance w (bitsAhead m e w).length) = .error st) : runParse m e p w = .error st := by
  induction hp generalizing w with
  | done => simp [Parse.runBits] at h
  | @take pos n k _ ih =>
    rw [Parse.runBits] at h
    cases ht : takeBits n (bitsAhead m e w) with
    | none => rw [runParse, take_of_takeBits_none hw.lt ht hend]
    | some q =>
      obtain ⟨htake, hrest⟩ := take_of_takeBits hw.lt ht
      have hn := length_le_of_takeBits ht
      simp only [ht, hrest] at h
      rw [runParse, htake]
      exact ih q.1 (hw.advance hn) h (by rwa [advance_length_of_le hn])
  | align _ ih =>
    rw [Parse.runBits, ← bitsAhead_advance] at h
    have halign : alignWork w = advance w _ := (alignWork_eq hw.lt).trans (by rw [hw.bitOff, Nat.mod_mod])
    have hpad := hw.pad_le (m := m)
    rw [runParse, halign]
    exact ih (hw.advance hpad) h (by rwa [advance_length_of_le hpad])
  | byte h0 _ ih =>
    rw [Parse.runBits] at h
    cases ht : takeBits 8 (bitsAhead m e w) with
    | none => rw [runParse, takeByte_of_takeBits_none (hw.bitOff.trans h0) ht hend]
    | some q =>
      obtain ⟨b, hb, htake, hrest⟩ := takeByte_of_takeBits (hw.bitOff.trans h0) ht
      have hn := length_le_of_takeBits ht
      simp only [ht, hrest, ← hb] at h
      rw [runParse, htake]
      exact ih b.toNat (hw.advance hn) h (by rwa [advance_length_of_le hn])

end

/-! ### The header -/

section
variable {α : Type} {pos n : Nat} {k : Nat → Parse α}

theorem ByteAligned.takeWide (h : ∀ v, ByteAligned (pos + n) (k v)) : ByteAligned pos (Parse.takeWide n k) := by
  unfold Parse.takeWide
  split_ifs with h0 hn
  · subst h0; exact h 0
  · exact .take h
  · refine .take fun lo => .take fun hi => ?_
    rw [Nat.add_assoc, Nat.add_sub_cancel' (by omega)]
    exact h _

theorem ByteAligned.bytesLE (h0 : pos % 8 = 0) (h : ∀ v, ByteAligned (pos + 8 * n) (k v)) :
    ByteAligned pos (Parse.bytesLE n k) := by
  induction n generalizing pos k with
  | zero => exact h 0
  | succ n ih =>
    refine .byte h0 fun b => ih (by omega) fun v => ?_
    rw [Nat.add_assoc, Nat.add_comm 8, ← Nat.mul_succ]
    exact h _

end

/-- The trailing length of a header is read behind the pad (spec R51, R74). -/
theorem byteAligned_headerParse : ByteAligned 0 headerParse := by
  refine .take fun e => .takeWide fun frac => .take fun inwin => .take fun outwin => ?_
  simp only
  split
  · exact .done
  · exact .take fun lenb => .align <| .bytesLE (by omega) fun t => .done

/-- The bits of a header end at its last byte: a fetch behind them is `HeaderTruncated` (spec R71, R82). -/
theorem fetchByte_behind_header {m : Memory} {s : State} {w : Work} (h0 : w.bitOff = 0) :
    fetchByte m (headerEnv s) (advance w (bitsAhead m (headerEnv s) w).length) = .error .headerTruncated := by
  have hlimit : readLimit (headerEnv s) w = headerEnd s := by simp [readLimit, headerEnv]
  have hbehind : headerEnd s ≤ (advance w (bitsAhead m (headerEnv s) w).length).inByte := by
    rw [bitsAhead_length, hlimit]
    simp only [advance, bitPos]
    omega
  generalize advance w (bitsAhead m (headerEnv s) w).length = w1 at hbehind
  rw [fetchByte, crossIfNeeded_of_not_onBoundary (onBoundary_of_not_chunked rfl)]
  simp [byteChecks, headerEnv, hbehind]

/-- An aligned cursor is at the start of a description. -/
theorem ahead_of_aligned {e : Env} {w : Work} (h0 : w.bitOff = 0) : Ahead e w 0 := ⟨h0, fun h => absurd h0 h⟩

/-- The decoder of the header's slot, in any format. -/
theorem decodeBits_header (f : Format) (bs : List Bool) : decodeBits f .header bs = headerParse.runBits 0 bs := rfl

/-- A header whose bits decode is run (spec R71 to R74). -/
theorem step_header_of_decode {s : State} (ha : s.activity = .init) (h0 : s.work.bitOff = 0) {f : Format} {i : Instr}
    {rest : List Bool} (h : decodeBits f .header (bitsAhead s.inMem (headerEnv s) s.work) = .ok (i, rest)) :
    step s = exec i
      (setWork (advance s.work ((bitsAhead s.inMem (headerEnv s) s.work).length - rest.length)) s) := by
  rw [decodeBits_header] at h
  have hp := (readsAhead_of_runBits byteAligned_headerParse (ahead_of_aligned h0) h).runParse
  refine step_of_run ((fetch_init ha).trans ?_)
  unfold fetchHeader
  rw [hp]

/-- Settles O18: up to the end of the header the reader is the decoder. -/
theorem stepRunsHeader : Obligations.StepRunsHeader := by
  refine fun s ha h0 => ⟨fun i rest h => step_header_of_decode ha h0 h, fun r h => ?_⟩
  rw [decodeBits_header] at h
  have hp := runParse_of_runBits_error byteAligned_headerParse (ahead_of_aligned h0) h (fetchByte_behind_header h0)
  refine step_of_stop ((fetch_init ha).trans ?_)
  unfold fetchHeader
  rw [hp, ← raiseStatus_eq_failedInit _ ha]

end Sys2Proof.Machine

/-! INIT and its header (O29, O30, O31, O32) and what a DECODE does before its first symbol (O33, O34). -/

namespace Sys2Proof.Machine

/-! ### INIT -/

/-- Settles O31, from the cases of INIT. -/
theorem initBegins : Obligations.InitBegins := by
  intro s
  change (_ → _ → execInit s = _) ∧ (_ → _ → execInit s = _) ∧ (_ → execInit s = _)
  rcases execInit_eq s with ⟨hl, hx⟩ | ⟨hl, hf, hx⟩ | ⟨hl, hf, hx⟩ <;>
    unfold Config.totalLenBound at hl <;> rw [hx]
  · exact ⟨by omega, by omega, fun _ => rfl⟩
  · exact ⟨fun _ hfit => absurd hfit (Nat.not_le.2 hf), fun _ _ => rfl, by omega⟩
  · exact ⟨fun _ _ => rfl, fun _ hlong => absurd hf (Nat.not_le.2 hlong), by omega⟩

/-! ### The header -/

section
variable {s : State} {inwin : BitVec 6} {trail : Option Trail}

/-- The window code that means "unconstrained", as a number. -/
theorem toNat_eq_winUnconstrained : inwin.toNat = Config.winUnconstrained ↔ inwin = 63 :=
  ⟨fun h => BitVec.eq_of_toNat_eq h, fun h => h ▸ rfl⟩

/-- The test of the first chunk is R75's. -/
theorem initReqIn_le_iff (h : inwin ≠ 63) :
    initReqIn inwin trail s ≤ min (initNextBnd inwin s) s.arg1.toNat ↔ FirstChunkFits s inwin trail := by
  have hc := mt toNat_eq_winUnconstrained.1 h
  rw [initReqIn, initNextBnd, if_neg hc, if_neg hc, (windowMask_constrained hc).2]
  rfl

/-- A header passes its tests when its window code is not reserved and its first chunk is legal (spec R73, R75). -/
theorem headerChecks_eq_none_iff :
    headerChecks inwin trail s = none ↔ 4 ≤ inwin.toNat ∧ (inwin ≠ 63 → FirstChunkFits s inwin trail) := by
  rw [headerChecks_eq_none, ne_eq, toNat_eq_winUnconstrained]
  exact and_congr_right fun _ => forall_congr' fun h => initReqIn_le_iff h

/-- Settles O30: the tests of the header, which raise `CorruptStream` alone. -/
theorem hdrRejects : Obligations.HdrRejects := by
  intro e fr iw ow tr s ha hbad
  rcases execHdr_eq e fr iw ow tr s with ⟨st, hk, hx⟩ | ⟨hk, -⟩
  · rw [headerChecks_eq_some hk, raiseStatus_eq_failedInit _ ha] at hx
    exact hx
  · obtain ⟨hmin, hfit⟩ := headerChecks_eq_none_iff.1 hk
    rcases hbad with hres | ⟨-, hc, hlong⟩
    · omega
    · exact absurd (hfit hc) hlong

/-- The first boundary of a session fits its register (spec R75, R148). -/
theorem toNat_initNextBnd (hfit : headerEnd s < 2 ^ 63) :
    (BitVec.ofNat 64 (initNextBnd inwin s)).toNat = initNextBnd inwin s := by
  rw [BitVec.toNat_ofNat, Nat.mod_eq_of_lt]
  by_cases hc : inwin.toNat = Config.winUnconstrained
  · rw [initNextBnd, if_pos hc]; decide
  · obtain ⟨-, -, hnear⟩ := initNextBnd_constrained (s := s) hc
    have hpow : 2 ^ inwin.toNat ≤ 2 ^ 62 := Nat.pow_le_pow_right (by omega) (windowMask_constrained hc).1
    omega

/-- The first gate of a session fits its register (spec R75). -/
theorem toNat_initReqIn (hk : headerChecks inwin trail s = none) :
    (BitVec.ofNat 64 (initReqIn inwin trail s)).toNat = initReqIn inwin trail s := by
  refine toNat_ofNat_of_le (b := s.arg1) ?_
  by_cases hc : inwin.toNat = Config.winUnconstrained
  · rw [initReqIn, if_pos hc]
  · exact le_trans ((headerChecks_eq_none.1 hk).2 hc) (Nat.min_le_right _ _)

/-- `LEN_BYTES` fits its register (spec R74). -/
theorem toNat_lenBytesOf (trail : Option Trail) : (BitVec.ofNat 4 (lenBytesOf trail)).toNat = lenBytesOf trail := by
  rw [BitVec.toNat_ofNat, Nat.mod_eq_of_lt]
  cases trail with
  | none => decide
  | some t => have := t.lenb.isLt; simp only [lenBytesOf]; omega

/-- A header that passes its tests opens the session with the registers of R75. -/
theorem sessionOpened_openSession (e : BitVec 6) (fr : BitVec 63) (outwin : BitVec 6) (hl : s.arg1.toNat < 2 ^ 63)
    (hf : headerEnd s ≤ s.arg1.toNat) (hk : headerChecks inwin trail s = none) :
    SessionOpened s (openSession e fr inwin outwin trail s) e fr inwin outwin trail := by
  have hstart : (openSession e fr inwin outwin trail s).dataStart.toNat = headerEnd s := toNat_ofNat_of_le hf
  have hin : (openSession e fr inwin outwin trail s).inMask.toNat = windowMask inwin := toNat_windowMask inwin
  constructor
  case dataStart => exact hstart
  case decompSize => exact (toNat_decompSizeOf e fr).1
  case inMask => rw [hin, windowMask]; simp only [toNat_eq_winUnconstrained]
  case outMask => rw [openSession_outMask, toNat_windowMask, windowMask]; simp only [toNat_eq_winUnconstrained]
  case lenBytes => exact toNat_lenBytesOf trail
  case chunked => simp [toNat_eq_winUnconstrained]
  case reqIn =>
    rw [openSession_reqIn, toNat_initReqIn hk, initReqIn, hstart]
    simp only [toNat_eq_winUnconstrained]
  case nextBnd =>
    rw [openSession_nextBnd, toNat_initNextBnd (by omega), initNextBnd, hstart, hin]
    simp only [toNat_eq_winUnconstrained]
  case boundary => exact ⟨rfl, rfl, rfl, rfl⟩
  case latches => exact ⟨rfl, rfl⟩
  case args => exact ⟨rfl, rfl, rfl, rfl, rfl⟩
  case others => exact ⟨rfl, rfl, rfl⟩
  case roms => exact ⟨rfl, rfl⟩
  case memories => exact ⟨rfl, rfl⟩
  all_goals rfl

end

/-- Settles O29: the tests of the header pass, and the session it opens is R75's. -/
theorem hdrOpensSession : Obligations.HdrOpensSession := by
  intro f e fr iw ow tr s _ hl hf hmin hfit
  have hk := headerChecks_eq_none_iff.2 ⟨hmin, hfit⟩
  rcases execHdr_eq e fr iw ow tr s with ⟨st, hk', -⟩ | ⟨-, hx⟩
  · rw [hk] at hk'; contradiction
  · exact ⟨_, hx, sessionOpened_openSession e fr ow hl hf hk⟩

/-! ### The whole INIT command -/

/-- One step before a run. -/
theorem CommandRuns.of_step {s t u : State} (h : step s = .next t) (ht : CommandRuns t u) : CommandRuns s u := by
  obtain ⟨k, hk, hb⟩ := ht
  exact ⟨k + 1, (run_succ k h).trans hk, hb⟩

/-- A machine between commands has run. -/
theorem CommandRuns.of_idle {s : State} (h : s.busy = false) : CommandRuns s s := ⟨0, rfl, h⟩

/-- The bits ahead of an INIT that begins are those of its header (spec R71). -/
theorem bitsAhead_beginInit (s : State) :
    bitsAhead (beginInit s).inMem (headerEnv (beginInit s)) (beginInit s).work =
      streamBits s.inMem all1 (8 * s.arg2.toNat) (8 * s.arg3.toNat) := by
  have hlimit : readLimit (headerEnv (beginInit s)) (beginInit s).work = s.arg2.toNat + s.arg3.toNat := by
    simp [readLimit, headerEnv, headerEnd]
  rw [bitsAhead, hlimit, show bitPos (beginInit s).work = 8 * s.arg2.toNat from rfl, Nat.mul_add, Nat.add_sub_cancel_left]
  rfl

/-- INIT of a header that fits goes on to it (spec R70, R71). -/
theorem step_init {s : State} (ha : s.activity = .idle) (hc : s.cmd = 1) (hl : s.arg1.toNat < 2 ^ 63)
    (hf : s.arg2.toNat + s.arg3.toNat ≤ s.arg1.toNat) : step s = .next (beginInit (taken s)) :=
  (step_of_run (fetch_idle_init ha hc)).trans ((initBegins (taken s)).1 hl hf)

/-- A session opened depends on nothing of the state before but INIT's arguments and what it leaves alone. -/
theorem SessionOpened.of_begun {s t : State} {w : Work} {e : BitVec 6} {fr : BitVec 63} {iw ow : BitVec 6}
    {tr : Option Trail} (h : SessionOpened (setWork w (beginInit s)) t e fr iw ow tr) : SessionOpened s t e fr iw ow tr :=
  { h with }

/-- A session opened with no command latched is a command boundary. -/
theorem SessionOpened.not_busy {s t : State} {e : BitVec 6} {fr : BitVec 63} {iw ow : BitVec 6} {tr : Option Trail}
    (h : SessionOpened s t e fr iw ow tr) (hc : s.cmd = 0) : t.busy = false :=
  busy_eq_false.2 ⟨h.boundary.1, h.args.1.trans hc⟩

/-- The step of an INIT that stands before the encoding of a legal header opens the session (spec R72 to R76). -/
theorem step_beginInit {f : Format} {e : BitVec 6} {fr : BitVec 63} {iw ow : BitVec 6} {tr : Option Trail} {s : State}
    {rest : List Bool} (hwf : (Instr.hdr e fr iw ow tr).wf f = true) (hl : s.arg1.toNat < 2 ^ 63)
    (hf : s.arg2.toNat + s.arg3.toNat ≤ s.arg1.toNat)
    (hbits : streamBits s.inMem all1 (8 * s.arg2.toNat) (8 * s.arg3.toNat) = encode f (.hdr e fr iw ow tr) ++ rest)
    (hmin : 4 ≤ iw.toNat) (hfit : iw ≠ 63 → FirstChunkFits s iw tr) :
    ∃ t, step (beginInit s) = .next t ∧ SessionOpened s t e fr iw ow tr := by
  have hdecode := decodeOfEncode f _ rest hwf
  rw [← hbits, ← bitsAhead_beginInit] at hdecode
  rw [step_header_of_decode rfl rfl hdecode]
  generalize advance (beginInit s).work _ = w
  obtain ⟨t, hx, ht⟩ := hdrOpensSession f e fr iw ow tr (setWork w (beginInit s)) hwf hl hf hmin hfit
  exact ⟨t, hx, ht.of_begun⟩

/-- Settles O32: INIT passes the fit check, the header's bits decode to HDR, and HDR opens the session. -/
theorem initCommandOpensSession : Obligations.InitCommandOpensSession := by
  intro f e fr iw ow tr s base tl ho hs rest hidle hwf hl hf hbits hmin hfit
  obtain ⟨ha, -⟩ := busy_eq_false.1 hidle
  have hinit : step (issueInit base tl ho hs s) = .next (beginInit (taken (issueInit base tl ho hs s))) :=
    step_init ha rfl hl hf
  obtain ⟨t, hheader, ht⟩ := step_beginInit (s := taken (issueInit base tl ho hs s)) hwf hl hf hbits hmin hfit
  exact ⟨t, .of_step hinit (.of_step hheader (.of_idle (ht.not_busy rfl))), ht⟩

/-! ### DECODE -/

/-- DECODE in `Active` enters its loop (spec R77). -/
theorem execDecode_of_active {s : State} (hp : s.phase = .active) : execDecode s = .next (enterDecode s) := by
  unfold execDecode
  rw [hp]

/-- DECODE outside `Active` answers with the status of its phase (spec R77). -/
theorem execDecode_of_not_active {s : State} :
    (s.phase = .noSession → execDecode s = .next { s with status := .noSession }) ∧
    (s.phase = .failed → execDecode s = .next { s with status := .corruptStream }) ∧
    (s.phase = .done → execDecode s = .next { s with status := .done }) := by
  unfold execDecode
  exact ⟨fun hp => by rw [hp], fun hp => by rw [hp], fun hp => by rw [hp]⟩

/-- Settles O33: DECODE by phase; its latches fit their registers. -/
theorem decodeByPhase : Obligations.DecodeByPhase := by
  intro s
  obtain ⟨hno, hfailed, hdone⟩ := execDecode_of_not_active (s := s)
  exact ⟨hno, hfailed, hdone, fun hp => ⟨_, _, toNat_ofNat_of_le (Nat.min_le_right _ _),
    toNat_ofNat_of_le (Nat.min_le_right _ _), execDecode_of_active hp⟩⟩

/-- A turn that a test stops (spec R78). -/
theorem step_of_loopTest {s : State} {st : Status} (ha : s.activity = .decode) (hl : loopTest s = some st) :
    step s = .next (stopLoop st s) := by
  refine step_of_stop ((fetch_decode ha).trans ?_)
  unfold fetchTurn
  rw [hl]

/-- Settles O34, from the tests in their order. -/
theorem loopTestsStop : Obligations.LoopTestsStop := by
  refine fun s ha => ⟨fun hc => ?_, fun hc hin => ?_, fun hc hin hout => ?_⟩
  · exact step_of_loopTest ha (loopTest_of_complete hc)
  · exact step_of_loopTest ha (by simp [loopTest, hc, hin])
  · exact step_of_loopTest ha (by simp [loopTest, hc, Nat.not_lt.2 hin, hout])

end Sys2Proof.Machine

/-! A DECODE as a whole (O41, O51, O52): what ends it, that a turn with CONT as a step of its own does what `symbolStep` does,
and that every turn that goes on produces output. -/

namespace Sys2Proof.Machine

/-! ### The statuses that end a symbol step -/

/-- The statuses that a symbol step can raise (spec R126). -/
def StepStatus (st : Status) : Prop := st = .needMoreInput ∨ st = .needMoreOutput ∨ st = .corruptStream

/-- A read of a DECODE raises one of them: the end of the frame is `CorruptStream` there (spec R80). -/
theorem ReadStatus.stepStatus {s : State} {st : Status} (h : ReadStatus (decodeEnv s) st) : StepStatus st := by
  rcases h with rfl | rfl | rfl
  · exact .inr (.inr rfl)
  · exact .inr (.inr rfl)
  · exact .inl rfl

/-- The first of two checks that raises is one of them. -/
theorem firstOf_eq_some {a b : Option Status} {st : Status} (h : firstOf a b = some st) : a = some st ∨ b = some st := by
  cases a with
  | some st' => exact .inl h
  | none => exact .inr h

section
variable {s t : State} {n d : Nat} {st : Status}

theorem checkLength_status (h : checkLength s n = some st) : StepStatus st := by
  unfold checkLength at h; split_ifs at h <;> simp_all [StepStatus]

theorem checkDistance_status (h : checkDistance s d = some st) : StepStatus st := by
  unfold checkDistance at h; split_ifs at h <;> simp_all [StepStatus]

theorem checkRoom_status (h : checkRoom s n = some st) : StepStatus st := by
  unfold checkRoom at h; split_ifs at h; simp_all [StepStatus]

theorem matchChecks_status (h : matchChecks s n d = some st) : StepStatus st := by
  rcases firstOf_eq_some h with h | h
  · exact checkLength_status h
  · rcases firstOf_eq_some h with h | h
    · exact checkDistance_status h
    · exact checkRoom_status h

theorem literalChecks_status (h : literalChecks s n = some st) : StepStatus st := by
  rcases firstOf_eq_some h with h | h
  · exact checkLength_status h
  · exact checkRoom_status h

theorem takeBytes_status {m : Memory} {e : Env} {w : Work} (h : takeBytes m e n w = .error st) : ReadStatus e st := by
  induction n generalizing w with
  | zero => simp [takeBytes] at h
  | succ n ih =>
    rw [takeBytes, takeByte] at h
    cases hf : fetchByte m e w with
    | error st' => rw [hf] at h; cases h; exact fetchByte_status hf
    | ok q =>
      rw [hf] at h
      simp only at h
      split at h
      case h_1 hb => cases h; exact ih hb
      case h_2 => contradiction

/-- A match that ends the DECODE raises one of the statuses of a symbol step. -/
theorem copyMatch_status (h : copyMatch n d s = .next t) (ht : t.activity = .idle) : StepStatus t.status := by
  rcases copyMatch_eq n d s with ⟨st, hk, hx⟩ | ⟨-, hx⟩ <;> rw [hx] at h <;> cases h
  · simpa using matchChecks_status hk
  · contradiction

/-- A literal run that ends the DECODE raises one of the statuses of a symbol step. -/
theorem copyLiteralRun_status (h : copyLiteralRun n s = .next t) (ht : t.activity = .idle) : StepStatus t.status := by
  rcases copyLiteralRun_eq n s with ⟨st, hk, hx⟩ | ⟨-, st, hb, hx⟩ | ⟨-, bs, w, -, hx⟩ <;> rw [hx] at h <;> cases h
  · simpa using literalChecks_status hk
  · simpa using (takeBytes_status hb).stepStatus
  · contradiction

/-- A symbol that ends the DECODE raises one of the statuses of a symbol step. -/
theorem exec_symbol_status {i : Instr} (hi : i.slot = .symbol) (h : exec i s = .next t) (ht : t.activity = .idle) :
    StepStatus t.status := by
  rcases operands_of_symbol s.format hi with ⟨n, d, ho⟩ | ⟨n, ho⟩
  · exact copyMatch_status (exec_of_matchOperands ho ▸ h) ht
  · exact copyLiteralRun_status (exec_of_literalOperand ho ▸ h) ht

/-- So does a symbol step whose fields are read from the working copy of `s1`. -/
theorem step_status_of_fetchSymbol {s1 : State} (hf : fetch s = fetchSymbol s1) (h : step s = .next t)
    (ht : t.activity = .idle) : StepStatus t.status := by
  rcases fetchSymbol_cases s1 with ⟨st, hp, hx⟩ | ⟨i, w, hp, hx⟩ <;> rw [hx] at hf
  · rw [step_of_stop hf] at h
    cases h
    simpa using (runParse_status hp).stepStatus
  · rw [step_of_run hf] at h
    exact exec_symbol_status ((gives_symbolParse _).runParse hp) h ht

end

/-! ### CONT as a step -/

/-- The state in which CONT has moved the working copy over the boundary before a symbol's first bit (spec R111). -/
def crossedTo (w : Work) (s : State) : State := { beginSymbol s with work := w, activity := .symbol }

section
variable {s : State}

/-- On a boundary a turn whose tests pass begins with CONT (spec R111). -/
theorem fetch_of_onBoundary (ha : s.activity = .decode) (hl : loopTest s = none)
    (hb : onBoundary (decodeEnv s) (copyWork s) = true) : fetch s = fetchCont (beginSymbol s) := by
  simp [fetch_decode ha, fetchTurn, hl, hb]

/-- Off it, with its symbol (spec R78). -/
theorem fetch_of_off_boundary (ha : s.activity = .decode) (hl : loopTest s = none)
    (hb : onBoundary (decodeEnv s) (copyWork s) = false) : fetch s = fetchSymbol (beginSymbol s) := by
  simp [fetch_decode ha, fetchTurn, hl, hb]

/-- A crossing fails as its checks (a), (b), (c) do (spec R110). -/
theorem crossBoundary_of_contChecks_some {m : Memory} {e : Env} {w : Work} {st : Status} (h : contChecks e w = some st) :
    crossBoundary m e w = .error st := by simp [crossBoundary, readCont, h]

/-- Past them it is check (d) and the writes of W for the field's value (spec R110). -/
theorem crossBoundary_of_contChecks_none {m : Memory} {e : Env} {w : Work} (h : contChecks e w = none) :
    crossBoundary m e w = contApply e (contValue (decodeCont (contBytes m e w))) w := by simp [crossBoundary, readCont, h]

/-- CONT as a step is CrossBoundary (spec R110, R111): it fails with its status or puts its working copy in force. -/
theorem step_cont_cases (ha : s.activity = .decode) (hl : loopTest s = none)
    (hb : onBoundary (decodeEnv s) (copyWork s) = true) :
    (∃ st, crossBoundary s.inMem (decodeEnv s) (copyWork s) = .error st ∧ step s = .next (failedStep st s)) ∨
    (∃ w, crossBoundary s.inMem (decodeEnv s) (copyWork s) = .ok w ∧ step s = .next (crossedTo w s)) := by
  have hf := fetch_of_onBoundary ha hl hb
  have hraise : ∀ st, raiseStatus st (beginSymbol s) = failedStep st s :=
    fun st => raiseStatus_eq_failedStep st (by simp [ha])
  rcases fetchCont_cases (beginSymbol s) with ⟨st, hk, hx⟩ | ⟨hk, hx⟩
  · refine .inl ⟨st, crossBoundary_of_contChecks_some hk, ?_⟩
    rw [step_of_stop (hf.trans hx), hraise]
  · have hc := crossBoundary_of_contChecks_none (m := s.inMem) hk
    rw [decodeEnv_beginSymbol] at hc hx
    have hstep := step_of_run (hf.trans hx)
    rcases execCont_eq _ (beginSymbol s) with ⟨st, hv, hy⟩ | ⟨w, hv, hy⟩
    · refine .inl ⟨st, hc.trans hv, ?_⟩
      rw [hstep, ← hraise]; exact hy
    · exact .inr ⟨w, hc.trans hv, hstep.trans hy⟩

end

/-! ### A turn is a symbol step -/

section
variable {m : Memory} {e : Env} {w w' : Work} {st : Status}

/-- On a boundary a symbol's first bit is that behind the field, and its status that of the crossing (spec R111). -/
theorem fetchByte_of_crossBoundary_error (hb : onBoundary e w = true) (h : crossBoundary m e w = .error st) :
    fetchByte m e w = .error st := by simp [fetchByte, crossIfNeeded, hb, h]

theorem fetchByte_of_crossBoundary_ok (hb : onBoundary e w = true) (h : crossBoundary m e w = .ok w')
    (hb' : onBoundary e w' = false) : fetchByte m e w = fetchByte m e w' := by simp [fetchByte, crossIfNeeded, hb, hb', h]

/-- A symbol begins with its selector, so that what its fields are depends on the first fetch alone. -/
theorem runParse_symbol_congr (f : Format) (h : fetchByte m e w = fetchByte m e w') :
    runParse m e (symbolParse f) w = runParse m e (symbolParse f) w' := by
  unfold symbolParse
  simp only [runParse, take, takeBit, h]

theorem runParse_symbol_of_fetchByte_error (f : Format) (h : fetchByte m e w = .error st) :
    runParse m e (symbolParse f) w = .error st := by
  unfold symbolParse
  simp only [runParse, take, takeBit, h]

/-- A session's crossing ends off the next boundary: the field is shorter than its chunk (spec R57, R110). -/
theorem not_onBoundary_of_crossBoundary (he : EnvInv e) (hb : onBoundary e w = true) (h : crossBoundary m e w = .ok w') :
    onBoundary e w' = false := by
  obtain ⟨-, v, hv⟩ := crossBoundary_eq_ok h
  obtain ⟨-, rfl⟩ := contApply_eq_ok.1 hv
  simp only [onBoundary, Bool.and_eq_true] at hb
  have := he.field hb.1
  simp [onBoundary, hb.1]
  omega

end

section
variable {s s' t : State} {i : Instr}

/-- A symbol whose fields cannot be read. -/
theorem fetchSymbol_of_error {st : Status}
    (h : runParse s.inMem (decodeEnv s) (symbolParse s.format) s.work = .error st) :
    fetchSymbol s = .stop (raiseStatus st s) := by
  unfold fetchSymbol; rw [h]

/-- A symbol whose fields were read. -/
theorem fetchSymbol_of_ok {w : Work} (h : runParse s.inMem (decodeEnv s) (symbolParse s.format) s.work = .ok (i, w)) :
    fetchSymbol s = .run i { s with work := w, fsm := fsmRun s.fsm (readEvents i) } := by
  unfold fetchSymbol; rw [h]; rfl

/-- A fetch that stops is the whole symbol step. -/
theorem symbolStep_of_stop (h : fetchSymbol (beginSymbol s) = .stop t) : symbolStep s = t := by
  unfold symbolStep; rw [h]

/-- A fetch and a meaning are the symbol step. -/
theorem symbolStep_of_run (h : fetchSymbol (beginSymbol s) = .run i s') (hx : exec i s' = .next t) : symbolStep s = t := by
  unfold symbolStep; rw [h]; simp only [hx]

/-- A symbol's meaning answers a next state. -/
theorem exec_symbol_next (hi : i.slot = .symbol) (s : State) : ∃ t, exec i s = .next t := by
  rcases exec_next_or_refused i s with h | ⟨rfl, -⟩
  · exact h
  · contradiction

/-- The failure of a symbol step does not depend on whether CONT was a step of its own. -/
theorem raiseStatus_of_activity (st : Status) {a : Activity} (ha : a ≠ .init) (hs : s.activity ≠ .init) :
    raiseStatus st { s with activity := a } = raiseStatus st s := by
  rw [raiseStatus_eq_failedStep st hs, raiseStatus_eq_failedStep st (by exact ha)]
  rfl

/-- Nor does a match. -/
theorem copyMatch_of_activity (n d : Nat) {a : Activity} (ha : a ≠ .init) (hs : s.activity ≠ .init) :
    copyMatch n d { s with activity := a } = copyMatch n d s := by
  rcases copyMatch_eq n d s with ⟨st, hk, hx⟩ | ⟨hk, hx⟩ <;> rw [hx]
  · have hk' : matchChecks { s with activity := a } n d = some st := hk
    simp only [copyMatch, hk', raiseStatus_of_activity st ha hs]
  · have hk' : matchChecks { s with activity := a } n d = none := hk
    simp only [copyMatch, hk']
    rfl

/-- Nor does a literal run. -/
theorem copyLiteralRun_of_activity (n : Nat) {a : Activity} (ha : a ≠ .init) (hs : s.activity ≠ .init) :
    copyLiteralRun n { s with activity := a } = copyLiteralRun n s := by
  have henv : decodeEnv { s with activity := a } = decodeEnv s := rfl
  rcases copyLiteralRun_eq n s with ⟨st, hk, hx⟩ | ⟨hk, st, hb, hx⟩ | ⟨hk, bs, w, hb, hx⟩ <;> rw [hx]
  · have hk' : literalChecks { s with activity := a } n = some st := hk
    simp only [copyLiteralRun, hk', raiseStatus_of_activity st ha hs]
  · have hk' : literalChecks { s with activity := a } n = none := hk
    simp only [copyLiteralRun, hk', henv, hb, raiseStatus_of_activity st ha hs]
  · have hk' : literalChecks { s with activity := a } n = none := hk
    simp only [copyLiteralRun, hk', henv, hb]
    rfl

/-- Nor does a symbol. -/
theorem exec_symbol_of_activity {i : Instr} (hi : i.slot = .symbol) {a : Activity} (ha : a ≠ .init)
    (hs : s.activity ≠ .init) : exec i { s with activity := a } = exec i s := by
  rcases operands_of_symbol s.format hi with ⟨n, d, ho⟩ | ⟨n, ho⟩
  · rw [exec_of_matchOperands ho, exec_of_matchOperands (s := { s with activity := a }) ho,
      copyMatch_of_activity n d ha hs]
  · rw [exec_of_literalOperand ho, exec_of_literalOperand (s := { s with activity := a }) ho,
      copyLiteralRun_of_activity n ha hs]

/-- Where a turn reads its symbol at once, the step is the symbol step (spec R78, R89). -/
theorem step_eq_symbolStep (ha : s.activity = .decode) (hl : loopTest s = none)
    (hb : onBoundary (decodeEnv s) (copyWork s) = false) : step s = .next (symbolStep s) := by
  have hf := fetch_of_off_boundary ha hl hb
  rcases fetchSymbol_cases (beginSymbol s) with ⟨st, -, hx⟩ | ⟨i, w, hp, hx⟩
  · rw [step_of_stop (hf.trans hx), symbolStep_of_stop hx]
  · obtain ⟨t, ht⟩ := exec_symbol_next ((gives_symbolParse _).runParse hp) _
    rw [step_of_run (hf.trans hx), ht, symbolStep_of_run hx ht]

/-- A crossing that fails fails the symbol step (spec R110, R111). -/
theorem symbolStep_of_crossBoundary_error {st : Status} (ha : s.activity = .decode)
    (hb : onBoundary (decodeEnv s) (copyWork s) = true)
    (h : crossBoundary s.inMem (decodeEnv s) (copyWork s) = .error st) : symbolStep s = failedStep st s := by
  have hp := runParse_symbol_of_fetchByte_error s.format (fetchByte_of_crossBoundary_error hb h)
  have hraise : raiseStatus st (beginSymbol s) = failedStep st s := raiseStatus_eq_failedStep st (by simp [ha])
  rw [← hraise]
  exact symbolStep_of_stop (fetchSymbol_of_error hp)

/-- The step behind a crossing is the symbol step with the crossing inside it (spec R89, R111). -/
theorem step_crossedTo {w : Work} (he : EnvInv (decodeEnv s)) (ha : s.activity = .decode)
    (hb : onBoundary (decodeEnv s) (copyWork s) = true)
    (h : crossBoundary s.inMem (decodeEnv s) (copyWork s) = .ok w) : step (crossedTo w s) = .next (symbolStep s) := by
  have hp := runParse_symbol_congr s.format
    (fetchByte_of_crossBoundary_ok hb h (not_onBoundary_of_crossBoundary he hb h))
  have hinit : (beginSymbol s).activity ≠ .init := by simp [ha]
  have hf : fetch (crossedTo w s) = fetchSymbol (crossedTo w s) := fetch_symbol rfl
  rcases fetchSymbol_cases (beginSymbol s) with ⟨st, hp', hx⟩ | ⟨i, w1, hp', hx⟩
  · have hx' := fetchSymbol_of_error (s := crossedTo w s) (hp.symm.trans hp')
    rw [step_of_stop (hf.trans hx'), symbolStep_of_stop hx, raiseStatus_eq_failedStep st hinit,
      raiseStatus_eq_failedStep (s := crossedTo w s) st (by simp [crossedTo])]
    rfl
  · have hx' := fetchSymbol_of_ok (s := crossedTo w s) (hp.symm.trans hp')
    have hi := (gives_symbolParse _).runParse hp'
    obtain ⟨t, ht⟩ := exec_symbol_next hi { beginSymbol s with work := w1, fsm := fsmRun .readSymbol (readEvents i) }
    rw [symbolStep_of_run hx ht, ← ht, step_of_run (hf.trans hx')]
    exact exec_symbol_of_activity (s := { beginSymbol s with work := w1, fsm := fsmRun .readSymbol (readEvents i) }) hi
      (by simp [crossedTo]) hinit

end

/-! ### Every symbol produces output -/

section
variable {f : Format} {i : Instr}

/-- A well-formed short entry has a length (spec R55). -/
theorem one_le_short_baseLength (h : f.romWf = true) (idx : BitVec 4) : 1 ≤ (f.short idx).baseLength.toNat := by
  simp only [Format.romWf, Bool.and_eq_true, List.all_eq_true, decide_eq_true_eq] at h
  exact (h.1 _ (by simp [Format.short, Vector.get])).2

/-- A well-formed long entry has a length (spec R55). -/
theorem one_le_long_baseLength (h : f.romWf = true) (idx : BitVec 6) : 1 ≤ (f.long idx).baseLength.toNat := by
  simp only [Format.romWf, Bool.and_eq_true, List.all_eq_true, decide_eq_true_eq] at h
  exact (h.2 _ (by simp [Format.long, Vector.get])).2

/-- A match is at least one byte long (spec R103). -/
theorem one_le_of_matchOperands (h : f.romWf = true) {n d : Nat} (ho : matchOperands f i = some (n, d)) : 1 ≤ n := by
  unfold matchOperands at ho
  cases hv : i.view <;> simp only [hv, Option.some.injEq, Prod.mk.injEq, reduceCtorEq] at ho
  case short idx x dn df => exact ho.1 ▸ Nat.le_add_right_of_le (one_le_short_baseLength h idx)
  case extended idx x dn df => exact ho.1 ▸ Nat.le_add_right_of_le (by decide)
  case long idx x dn df => exact ho.1 ▸ Nat.le_add_right_of_le (one_le_long_baseLength h idx)

/-- A literal run is at least one byte long (spec R103). -/
theorem one_le_of_literalOperand (h : f.romWf = true) {n : Nat} (ho : literalOperand f i = some n) : 1 ≤ n := by
  unfold literalOperand at ho
  cases hv : i.view <;> simp only [hv, Option.some.injEq, reduceCtorEq] at ho
  case literal idx x => exact ho ▸ Nat.le_add_right_of_le (one_le_long_baseLength h idx)

end

section
variable {s t : State}

/-- A symbol that commits is at least one byte long (spec R103). -/
theorem Commits.one_le {i : Instr} {w1 w : Work} {p : List (Nat × Byte)} {n : Nat} (h : Commits s i w1 p w n)
    (hrom : s.format.romWf = true) : 1 ≤ n := by
  cases h with
  | copies ho _ => exact one_le_of_matchOperands hrom ho
  | stores ho _ _ => exact one_le_of_literalOperand hrom ho

end

/-! ### How a DECODE ends -/

section
variable {s t : State}

/-- A failed symbol step changes no register but `STATUS` and `PHASE`: between steps `FSM` is ReadSymbol and `NBITS` 0. -/
theorem failedStep_eq (h : Inv s) (st : Status) :
    failedStep st s = { s with
      status := st, phase := if st = .corruptStream then .failed else s.phase, activity := .idle, work := Work.none,
      availIn := 0, availOut := 0 } := by
  rw [failedStep, ← h.fsm, ← h.nbits]

/-- A symbol step that fails has one of its statuses (spec R126). -/
theorem step_status (hs : InSymbol s) (h : step s = .next t) (ht : t.activity = .idle) : StepStatus t.status := by
  rcases hs with ⟨ha, hl⟩ | ha
  · cases hb : onBoundary (decodeEnv s) (copyWork s) with
    | false => exact step_status_of_fetchSymbol (fetch_of_off_boundary ha hl hb) h ht
    | true =>
      rcases step_cont_cases ha hl hb with ⟨st, hc, hx⟩ | ⟨w, -, hx⟩ <;> rw [hx] at h <;> cases h
      · exact (fetchByte_status (fetchByte_of_crossBoundary_error hb hc)).stepStatus
      · contradiction
  · exact step_status_of_fetchSymbol (fetch_symbol ha) h ht

/-- Everything that a step of a DECODE can do. -/
inductive DecodeStep (s : State) : State → Prop where
  /-- A test of the loop stops it (spec R78). -/
  | stopped (ha : s.activity = .decode) {st : Status} (hl : loopTest s = some st) : DecodeStep s (stopLoop st s)
  /-- CONT moves the working copy (spec R111). -/
  | crossed (w : Work) : DecodeStep s { s with work := w, fsm := .readSymbol, activity := .symbol }
  /-- The symbol step fails (spec R79). -/
  | failed {st : Status} (hst : StepStatus st) : DecodeStep s (failedStep st s)
  /-- A symbol commits (spec R89): it is not empty and within the declared size (spec R98, R103). -/
  | committed (p : List (Nat × Byte)) (w : Work) {n : Nat} (h1 : 1 ≤ n)
      (hn : s.outCur.toNat + n ≤ s.decompSize.toNat) : DecodeStep s (commitSymbol p w n s)

theorem decodeStep_of_step (hinv : Inv s) (ha : s.activity = .decode ∨ s.activity = .symbol) (h : step s = .next t) :
    DecodeStep s t := by
  have hidle : s.activity ≠ .idle ∧ s.activity ≠ .init := by rcases ha with h | h <;> simp [h]
  cases stepCase_of_step h with
  | ignored hd _ => exact absurd hd hidle.1
  | initTruncated hd _ => exact absurd hd hidle.1
  | initBegun hd _ _ _ => exact absurd hd hidle.1
  | decodeRejected hd _ _ => exact absurd hd hidle.1
  | decodeEntered hd _ _ => exact absurd hd hidle.1
  | headerFailed hd _ => exact absurd hd hidle.2
  | opened hd _ _ _ _ _ => exact absurd hd hidle.2
  | loopStopped hd hl => exact .stopped hd hl
  | crossed _ _ _ _ _ => exact .crossed _
  | symbolFailed hs st => exact .failed (step_status hs h rfl)
  | committed _ _ _ hc => exact .committed _ _ (hc.one_le hinv.roms) hc.size

/-- Settles O41: a DECODE is ended by a test of its loop or by a failed symbol step. -/
theorem decodeEndsPrecisely : Obligations.DecodeEndsPrecisely := by
  intro s t hinv ha h ht
  have hp := hinv.phase_of_decoding ha
  cases decodeStep_of_step hinv ha h with
  | crossed _ => contradiction
  | committed _ _ _ _ => contradiction
  | stopped _ hl =>
    refine ⟨rfl, ?_⟩
    rcases loopTest_eq_some hl with ⟨rfl, hc⟩ | ⟨rfl, -⟩ | ⟨rfl, -⟩
    · exact .inl ⟨rfl, rfl, hc⟩
    · exact .inr (.inl ⟨rfl, hp⟩)
    · exact .inr (.inr (.inl ⟨rfl, hp⟩))
  | @failed st hst =>
    refine ⟨failedStep_eq hinv st, ?_⟩
    rcases hst with rfl | rfl | rfl
    · exact .inr (.inl ⟨rfl, hp⟩)
    · exact .inr (.inr (.inl ⟨rfl, hp⟩))
    · exact .inr (.inr (.inr ⟨rfl, rfl⟩))

end

/-! ### A turn that goes on, and one that ends -/

section
variable {s s1 t : State}

/-- A symbol ends the DECODE or goes on to the next turn. -/
theorem exec_symbol_activity {i : Instr} (hi : i.slot = .symbol) (h : exec i s = .next t) : t.activity ≠ .symbol := by
  rcases operands_of_symbol s.format hi with ⟨n, d, ho⟩ | ⟨n, ho⟩
  · rw [exec_of_matchOperands ho] at h
    rcases copyMatch_eq n d s with ⟨st, -, hx⟩ | ⟨-, hx⟩ <;> rw [hx] at h <;> cases h <;> simp
  · rw [exec_of_literalOperand ho] at h
    rcases copyLiteralRun_eq n s with ⟨st, -, hx⟩ | ⟨-, st, -, hx⟩ | ⟨-, bs, w, -, hx⟩ <;> rw [hx] at h <;> cases h <;>
      simp

/-- So does the symbol step. -/
theorem symbolStep_activity (s : State) : (symbolStep s).activity ≠ .symbol := by
  rcases fetchSymbol_cases (beginSymbol s) with ⟨st, -, hx⟩ | ⟨i, w, hp, hx⟩
  · rw [symbolStep_of_stop hx]; simp
  · have hi := (gives_symbolParse _).runParse hp
    obtain ⟨t, ht⟩ := exec_symbol_next hi _
    rw [symbolStep_of_run hx ht]
    exact exec_symbol_activity hi ht

/-- `s1` is where the turn of `s` takes its last step: at its top, or behind CONT. That step is the symbol step. -/
structure LastStep (s s1 : State) : Prop where
  reached : s1 = s ∨ step s = .next s1
  inSymbol : InSymbol s1
  outCur : s1.outCur = s.outCur
  decompSize : s1.decompSize = s.decompSize
  step : step s1 = .next (symbolStep s)

/-- A turn whose tests pass has a last step (spec R78, R111). -/
theorem exists_lastStep (hinv : Inv s) (ha : s.activity = .decode) (hl : loopTest s = none) : ∃ s1, LastStep s s1 := by
  cases hb : onBoundary (decodeEnv s) (copyWork s) with
  | false => exact ⟨s, .inl rfl, .inl ⟨ha, hl⟩, rfl, rfl, step_eq_symbolStep ha hl hb⟩
  | true =>
    rcases step_cont_cases ha hl hb with ⟨st, hc, hx⟩ | ⟨w, hc, hx⟩
    · exact ⟨s, .inl rfl, .inl ⟨ha, hl⟩, rfl, rfl, by rw [hx, symbolStep_of_crossBoundary_error ha hb hc]⟩
    · exact ⟨crossedTo w s, .inr hx, .inr rfl, rfl, rfl,
        step_crossedTo (hinv.session_of_decoding (.inl ha)).envInv ha hb hc⟩

/-- Every state of a turn meets the invariant. -/
theorem LastStep.inv (h : LastStep s s1) (hinv : Inv s) : Inv s1 ∧ Inv (symbolStep s) := by
  have hinv1 : Inv s1 := by
    rcases h.reached with rfl | hx
    · exact hinv
    · exact stepKeepsInv s s1 hinv hx
  exact ⟨hinv1, stepKeepsInv s1 _ hinv1 h.step⟩

/-- A symbol step ends the DECODE with one of its statuses, or goes on and has produced output. -/
theorem LastStep.cases (h : LastStep s s1) (hinv : Inv s) :
    ((symbolStep s).busy = false ∧ (symbolStep s).activity ≠ .decode ∧ StepStatus (symbolStep s).status) ∨
    ((symbolStep s).activity = .decode ∧ s.outCur.toNat < (symbolStep s).outCur.toNat ∧
      (symbolStep s).decompSize = s.decompSize) := by
  obtain ⟨hinv1, -⟩ := h.inv hinv
  have hstep := h.step
  have hact := symbolStep_activity s
  rw [← h.outCur, ← h.decompSize]
  generalize symbolStep s = t at hstep hact
  cases decodeStep_of_step hinv1 h.inSymbol.activity hstep with
  | stopped ha hl =>
    rcases h.inSymbol with ⟨-, hl'⟩ | ha'
    · rw [hl] at hl'; contradiction
    · rw [ha] at ha'; contradiction
  | crossed w => contradiction
  | failed hst =>
    exact .inl ⟨busy_eq_false.2 ⟨rfl, (hinv1.decoding h.inSymbol.activity).1⟩, by simp [failedStep], hst⟩
  | committed p w h1 hn =>
    refine .inr ⟨rfl, ?_, rfl⟩
    rw [commitSymbol_outCur, toNat_ofNat_of_le hn]
    omega

end

/-! ### The loop -/

/-- A run of at most `n` steps from `s` reaches the command boundary `t`. -/
def EndsWithin (n : Nat) (s t : State) : Prop :=
  ∃ k, k ≤ n ∧ Host.Core.run Sys2Proof.core k s = .next t ∧ t.busy = false

section
variable {s t u : State} {n : Nat}

theorem EndsWithin.commandRuns : EndsWithin n s t → CommandRuns s t
  | ⟨k, _, hk, hb⟩ => ⟨k, hk, hb⟩

theorem EndsWithin.of_idle (h : s.busy = false) : EndsWithin 0 s s := ⟨0, le_rfl, rfl, h⟩

theorem EndsWithin.mono {m : Nat} (h : EndsWithin n s t) (hm : n ≤ m) : EndsWithin m s t := by
  obtain ⟨k, hk, hr⟩ := h
  exact ⟨k, hk.trans hm, hr⟩

/-- One step before a run. -/
theorem EndsWithin.of_step (h : step s = .next t) (ht : EndsWithin n t u) : EndsWithin (n + 1) s u := by
  obtain ⟨k, hk, hr, hb⟩ := ht
  exact ⟨k + 1, Nat.succ_le_succ hk, (run_succ k h).trans hr, hb⟩

/-- One turn before a run: at most two steps (log entry 3). -/
theorem LastStep.endsWithin {s1 : State} (h : LastStep s s1) (ht : EndsWithin n (symbolStep s) u) :
    EndsWithin (n + 2) s u := by
  have h1 := EndsWithin.of_step h.step ht
  rcases h.reached with rfl | hx
  · exact h1.mono (Nat.le_succ _)
  · exact .of_step hx h1

/-- A turn that a test stops ends the loop. -/
theorem decodeLoop_of_some {st : Status} (h : loopTest s = some st) : decodeLoop (n + 1) s = stopLoop st s := by
  simp [decodeLoop, h]

/-- A turn whose symbol commits goes on with the next. -/
theorem decodeLoop_of_goes_on (h : loopTest s = none) (ha : (symbolStep s).activity = .decode) :
    decodeLoop (n + 1) s = decodeLoop n (symbolStep s) := by
  simp [decodeLoop, h, ha]

/-- A turn whose symbol step fails ends the loop. -/
theorem decodeLoop_of_ends (h : loopTest s = none) (ha : (symbolStep s).activity ≠ .decode) :
    decodeLoop (n + 1) s = symbolStep s := by
  simp [decodeLoop, h, ha]

/-- The loop passes its first test only while output is missing. -/
theorem outCur_lt_of_loopTest (hinv : Inv s) (ha : s.activity = .decode) (hl : loopTest s = none) :
    s.outCur.toNat < s.decompSize.toNat := by
  have hle := (hinv.session_of_decoding (.inl ha)).outCur_le
  have hne : s.outCur.toNat ≠ s.decompSize.toNat := fun h => outCur_ne_of_loopTest hl (BitVec.eq_of_toNat_eq h)
  omega

/-- With a turn for each missing byte and one more, the loop ends, the steps do what it does, and they are at most two a
turn (spec R78, R89, R126). -/
theorem decodeLoop_ends (fuel : Nat) (hinv : Inv s) (ha : s.activity = .decode)
    (hfuel : s.decompSize.toNat - s.outCur.toNat + 1 ≤ fuel) :
    EndsWithin (2 * (s.decompSize.toNat - s.outCur.toNat) + 1) s (decodeLoop fuel s) ∧
      ((decodeLoop fuel s).status = .done ∨ StepStatus (decodeLoop fuel s).status) := by
  induction fuel generalizing s with
  | zero => omega
  | succ fuel ih =>
    cases hl : loopTest s with
    | some st =>
      rw [decodeLoop_of_some hl]
      have hidle : (stopLoop st s).busy = false := busy_eq_false.2 ⟨rfl, (hinv.decoding (.inl ha)).1⟩
      refine ⟨(EndsWithin.of_step (step_of_loopTest ha hl) (.of_idle hidle)).mono (by omega), ?_⟩
      rcases loopTest_eq_some hl with ⟨rfl, -⟩ | ⟨rfl, -⟩ | ⟨rfl, -⟩
      · exact .inl rfl
      · exact .inr (.inl rfl)
      · exact .inr (.inr (.inl rfl))
    | none =>
      obtain ⟨s1, hlast⟩ := exists_lastStep hinv ha hl
      have hmissing := outCur_lt_of_loopTest hinv ha hl
      rcases hlast.cases hinv with ⟨hidle, hact, hst⟩ | ⟨hact, hout, hsize⟩
      · rw [decodeLoop_of_ends hl hact]
        exact ⟨(hlast.endsWithin (.of_idle hidle)).mono (by omega), .inr hst⟩
      · rw [decodeLoop_of_goes_on hl hact]
        obtain ⟨hends, hst⟩ := ih (hlast.inv hinv).2 hact (by rw [hsize]; omega)
        rw [hsize] at hends
        exact ⟨(hlast.endsWithin hends).mono (by omega), hst⟩

end

/-- Settles O52: the steps end where the loop does. -/
theorem stepsAreDecodeLoop : Obligations.StepsAreDecodeLoop := fun _ fuel hinv ha hfuel =>
  (decodeLoop_ends fuel hinv ha hfuel).1.commandRuns

/-- Settles O51: two steps a turn, a turn for each missing byte, and the one that ends the loop. -/
theorem decodeTerminates : Obligations.DecodeTerminates := by
  intro s hinv ha
  obtain ⟨⟨k, hk, hr, hb⟩, hst⟩ := decodeLoop_ends _ hinv ha le_rfl
  exact ⟨k, _, hk, hr, hb, hst⟩

end Sys2Proof.Machine

/-! The BitReader by itself: the tests of FetchByte (O6), a field up to the first limit (O5), a wide field (O8), a whole byte
(O9), and what more available input changes (O7): a read other than one that ends in `NeedMoreInput` does not see it. -/

namespace Sys2Proof.Machine

/-! ### FetchByte -/

/-- Settles O6, by the outcomes of the crossing. -/
theorem fetchByteOrder : Obligations.FetchByteOrder := by
  intro m e w
  have hon : onBoundary e w = true ↔ e.chunked = true ∧ w.inByte = w.nextBnd := by simp [onBoundary]
  simp only [fetchByte, crossIfNeeded, hon]
  cases (if e.chunked = true ∧ w.inByte = w.nextBnd then crossBoundary m e w else .ok w) with
  | error st => rfl
  | ok w' => simp only [byteChecks]; split_ifs <;> rfl

/-! ### More available input -/

/-- The environment with another end of the available input. -/
def Env.withAvail (a : Nat) (e : Env) : Env := { e with avail := a }

section
variable {m : Memory} {e : Env} {w : Work} {a : Nat}

/-- What the checks of a continuation field answer, `NeedMoreInput` aside, they answer with more input: (a) and (b) come
before (c) (spec R110). -/
theorem contChecks_withAvail (ha : e.avail ≤ a) (h : contChecks e w ≠ some .needMoreInput) :
    contChecks (e.withAvail a) w = contChecks e w := by
  unfold contChecks Env.withAvail at *
  split_ifs at h ⊢ <;> simp_all
  omega

/-- So do the checks of a byte (spec R82). -/
theorem byteChecks_withAvail {p : Nat} (ha : e.avail ≤ a) (h : byteChecks e p ≠ some .needMoreInput) :
    byteChecks (e.withAvail a) p = byteChecks e p := by
  unfold byteChecks Env.withAvail at *
  split_ifs at h ⊢ <;> simp_all
  omega

theorem crossIfNeeded_withAvail (ha : e.avail ≤ a) (h : crossIfNeeded m e w ≠ .error .needMoreInput) :
    crossIfNeeded m (e.withAvail a) w = crossIfNeeded m e w := by
  have hon : onBoundary (e.withAvail a) w = onBoundary e w := rfl
  have hbytes : contBytes m (e.withAvail a) w = contBytes m e w := rfl
  have happly : ∀ v, contApply (e.withAvail a) v w = contApply e v w := fun _ => rfl
  simp only [crossIfNeeded, crossBoundary, readCont, hon, hbytes, happly] at h ⊢
  cases hb : onBoundary e w with
  | false => rfl
  | true =>
    have hk : contChecks e w ≠ some .needMoreInput := fun hk => h (by simp [hb, hk])
    rw [contChecks_withAvail ha hk]

theorem fetchByte_withAvail (ha : e.avail ≤ a) (h : fetchByte m e w ≠ .error .needMoreInput) :
    fetchByte m (e.withAvail a) w = fetchByte m e w := by
  have hc : crossIfNeeded m e w ≠ .error .needMoreInput := fun hc => h (by simp [fetchByte, hc])
  rw [fetchByte, fetchByte, crossIfNeeded_withAvail ha hc]
  cases hx : crossIfNeeded m e w with
  | error st => rfl
  | ok w' =>
    have hk : byteChecks e w'.inByte ≠ some .needMoreInput := fun hk => h (by simp [fetchByte, hx, hk])
    simp only [byteChecks_withAvail ha hk]
    rfl

theorem take_withAvail {n : Nat} (ha : e.avail ≤ a) (h : take m e n w ≠ .error .needMoreInput) :
    take m (e.withAvail a) n w = take m e n w := by
  induction n generalizing w with
  | zero => rfl
  | succ n ih =>
    have hf : fetchByte m e w ≠ .error .needMoreInput := fun hf => h (by simp [take, takeBit, hf])
    rw [take, take, takeBit, takeBit, fetchByte_withAvail ha hf]
    cases hx : fetchByte m e w with
    | error st => rfl
    | ok q =>
      have ht : take m e n (advanceBit q.2) ≠ .error .needMoreInput := fun ht => h (by simp [take, takeBit, hx, ht])
      simp only [ih ht]

theorem takeByte_withAvail (ha : e.avail ≤ a) (h : takeByte m e w ≠ .error .needMoreInput) :
    takeByte m (e.withAvail a) w = takeByte m e w := by
  have hf : fetchByte m e w ≠ .error .needMoreInput := fun hf => h (by simp [takeByte, hf])
  rw [takeByte, takeByte, fetchByte_withAvail ha hf]

theorem takeBytes_withAvail {n : Nat} (ha : e.avail ≤ a) (h : takeBytes m e n w ≠ .error .needMoreInput) :
    takeBytes m (e.withAvail a) n w = takeBytes m e n w := by
  induction n generalizing w with
  | zero => rfl
  | succ n ih =>
    have hb : takeByte m e w ≠ .error .needMoreInput := fun hb => h (by simp [takeBytes, hb])
    rw [takeBytes, takeBytes, takeByte_withAvail ha hb]
    cases hx : takeByte m e w with
    | error st => rfl
    | ok q =>
      have ht : takeBytes m e n q.2 ≠ .error .needMoreInput := fun ht => h (by simp [takeBytes, hx, ht])
      simp only [ih ht]

theorem runParse_withAvail {α : Type} {p : Parse α} (ha : e.avail ≤ a) (h : runParse m e p w ≠ .error .needMoreInput) :
    runParse m (e.withAvail a) p w = runParse m e p w := by
  induction p generalizing w with
  | done a => rfl
  | take n k ih =>
    have ht : take m e n w ≠ .error .needMoreInput := fun ht => h (by simp [runParse, ht])
    rw [runParse, runParse, take_withAvail ha ht]
    cases hx : take m e n w with
    | error st => rfl
    | ok q => exact ih q.1 fun hp => h (by simp [runParse, hx, hp])
  | align k ih => exact ih h
  | byte k ih =>
    have hb : takeByte m e w ≠ .error .needMoreInput := fun hb => h (by simp [runParse, hb])
    rw [runParse, runParse, takeByte_withAvail ha hb]
    cases hx : takeByte m e w with
    | error st => rfl
    | ok q => exact ih q.1.toNat fun hp => h (by simp [runParse, hx, hp])

end

/-- Settles O7, check by check: `NeedMoreInput` is the last test of a byte and of a field. -/
theorem moreInputSameRead : Obligations.MoreInputSameRead := fun _ _ _ _ ha =>
  ⟨fun _ _ h => runParse_withAvail ha fun he => h _ he rfl, fun _ h => takeBytes_withAvail ha fun he => h _ he rfl⟩

end Sys2Proof.Machine

namespace Sys2Proof.Machine

/-! ### Fields -/

section
variable {m : Memory} {e : Env} {w : Work}

/-- A field that fails fails as the first part of a longer one. -/
theorem take_add_of_error {a : Nat} {st : Status} (b : Nat) (h : take m e a w = .error st) :
    take m e (a + b) w = .error st := by
  induction a generalizing w with
  | zero => simp [take] at h
  | succ a ih =>
    rw [Nat.add_right_comm]
    rw [take] at h ⊢
    cases hb : takeBit m e w with
    | error st' => simpa [hb] using h
    | ok q =>
      simp only [hb] at h ⊢
      cases ht : take m e a q.2 with
      | error st' =>
        simp only [ht] at h
        simp only [ih (ht.trans h)]
      | ok q' => simp [ht] at h

/-- The description of a wide field is the function (spec R84). -/
theorem runParse_takeWide (n : Nat) : runParse m e (Parse.takeWide n .done) w = takeWide m e n w := by
  unfold Parse.takeWide takeWide
  split_ifs
  · rfl
  · rw [runParse]
    cases take m e n w <;> rfl
  · rw [runParse]
    cases take m e Config.takeMax w with
    | error st => rfl
    | ok q =>
      simp only [runParse]

/-- The low 32 bits of a wide field come first in the stream (spec R84). -/
theorem takeWide_eq_take (n : Nat) : takeWide m e n w = take m e n w := by
  unfold takeWide
  split_ifs with h0 hn
  · subst h0; rfl
  · rfl
  · obtain ⟨b, rfl⟩ := Nat.exists_eq_add_of_le (Nat.le_of_not_le hn)
    rw [Nat.add_sub_cancel_left]
    cases hlo : take m e Config.takeMax w with
    | error st => rw [take_add_of_error b hlo]
    | ok q =>
      rw [take_add b hlo]
      cases hhi : take m e b q.2 with
      | error st => simp only [hhi]
      | ok q' => simp only [hhi, Nat.mul_comm]

end

/-- Settles O8: the value, the cursor and the status of a field do not depend on how it is cut. -/
theorem takeWideIsTake : Obligations.TakeWideIsTake := fun _ _ n _ _ =>
  ⟨takeWide_eq_take n, (runParse_takeWide n).trans (takeWide_eq_take n)⟩

/-- Settles O9: at bit 0 the rest of the byte fetched is the whole byte. -/
theorem takeByteIsTake : Obligations.TakeByteIsTake := by
  intro m e w h0 hs
  cases hf : fetchByte m e w with
  | error st => simp [take, takeBit, takeByte, hf]
  | ok q =>
    have hbit : q.2.bitOff = 0 := (fetchByte_bitOff hf).trans h0
    have htake := take_of_fetchByte hs (by omega) hf
    rw [h0] at htake
    rw [show take m e 8 w = _ from htake, takeByte, hf, hbit, Nat.shiftRight_zero]
    simp only [hbit]

/-! ### A field below every limit -/

section
variable {m : Memory}

/-- The bits of a field in their order. -/
theorem getElem?_natBits {n v i : Nat} (h : i < n) : (natBits n v)[i]? = some (v.testBit i) := by
  induction n generalizing v i with
  | zero => omega
  | succ n ih =>
    cases i with
    | zero => simp [natBits, Nat.testBit_zero]
    | succ i => rw [natBits, List.getElem?_cons_succ, ih (by omega), Nat.testBit_succ]

/-- The bits of the stream in their order (spec R32). -/
theorem getElem?_streamBits {mask p n i : Nat} (h : i < n) :
    (streamBits m mask p n)[i]? = some ((m.read (offsetOf ((p + i) / 8) mask)).toNat.testBit ((p + i) % 8)) := by
  induction n generalizing p i with
  | zero => omega
  | succ n ih =>
    cases i with
    | zero => rfl
    | succ i => rw [streamBits, List.getElem?_cons_succ, ih (by omega), Nat.add_right_comm, Nat.add_assoc]

end

/-- Settles O5: the bits ahead of the cursor suffice, and the field is the first n of them. -/
theorem takeClosedForm : Obligations.TakeClosedForm := by
  intro m e n w hw hn
  cases hb : takeBits n (bitsAhead m e w) with
  | none =>
    rw [takeBits_eq_none, bitsAhead_length] at hb
    omega
  | some q =>
    obtain ⟨v, rest⟩ := q
    obtain ⟨htake, -⟩ := take_of_takeBits hw hb
    obtain ⟨hv, hbits⟩ := takeBits_eq_some hb
    refine ⟨v, htake, hv, fun i hi => ?_⟩
    have hfield : (bitsAhead m e w)[i]? = some (v.testBit i) := by
      rw [hbits, List.getElem?_append_left (by simpa using hi), getElem?_natBits hi]
    rw [bitsAhead, getElem?_streamBits (by omega)] at hfield
    exact (Option.some.inj hfield).symm

/-! ### Runs of bytes -/

section
variable {m : Memory} {e : Env} {w : Work}

/-- A run of bytes in two parts. -/
theorem takeBytes_add {a : Nat} {bs : List Byte} {w1 : Work} (b : Nat) (h : takeBytes m e a w = .ok (bs, w1)) :
    takeBytes m e (a + b) w =
      match takeBytes m e b w1 with
      | .error st => .error st
      | .ok (cs, w2) => .ok (bs ++ cs, w2) := by
  induction a generalizing w bs with
  | zero =>
    simp only [takeBytes, Except.ok.injEq, Prod.mk.injEq] at h
    obtain ⟨rfl, rfl⟩ := h
    rw [Nat.zero_add]
    cases takeBytes m e b w <;> rfl
  | succ a ih =>
    obtain ⟨c, w3, bs', hb, ht, rfl⟩ := takeBytes_succ_eq_ok h
    rw [Nat.add_right_comm, takeBytes, hb]
    simp only [ih ht]
    cases takeBytes m e b w1 <;> rfl

theorem bytesAt_succ (m : Memory) (mask p n : Nat) :
    bytesAt m mask p (n + 1) = m.read (offsetOf p mask) :: bytesAt m mask (p + 1) n := by
  simp [bytesAt, List.range_succ_eq_map, Function.comp_def, Nat.add_assoc, Nat.add_comm 1]

/-- Bytes below the limit of a read are those of `IN` (spec R96). -/
theorem takeBytes_of_le_readLimit {n : Nat} (h : w.inByte + n ≤ readLimit e w) :
    takeBytes m e n w = .ok (bytesAt m e.inMask w.inByte n, { w with inByte := w.inByte + n }) := by
  induction n generalizing w with
  | zero => rfl
  | succ n ih =>
    have hin := inByte_of_lt_readLimit (m := m) (e := e) (w := w) (by omega)
    have hrest : takeBytes m e n { w with inByte := w.inByte + 1 } = _ :=
      ih (show w.inByte + 1 + n ≤ readLimit e w by omega)
    rw [takeBytes, takeByte, hin.fetchByte]
    simp only [hrest, bytesAt_succ, Nat.add_assoc, Nat.add_comm 1]

/-! ### The limit of a read at a boundary -/

/-- Where the field of a boundary passes its checks, everything before the boundary can be read (spec R82, R110). -/
theorem readLimit_of_crossBoundary {w1 : Work} (hc : e.chunked = true) (h : crossBoundary m e w = .ok w1) :
    readLimit e w = w.nextBnd := by
  obtain ⟨hk, -⟩ := crossBoundary_eq_ok h
  obtain ⟨hwindow, htotal, havail⟩ := contChecks_eq_none.1 hk
  simp only [readLimit, hc, if_true]
  split <;> omega

/-- Behind a crossing the cursor is on no boundary if something can be read there. -/
theorem fetchByte_of_crossing {w1 : Work} (hc : e.chunked = true) (hat : w.inByte = w.nextBnd)
    (h : crossBoundary m e w = .ok w1) (hoff : w1.inByte ≠ w1.nextBnd) : fetchByte m e w = fetchByte m e w1 :=
  fetchByte_of_crossBoundary_ok (by simp [onBoundary, hc, hat]) h (by simp [onBoundary, hc, hoff])

end

/-- Settles O13: `a` bytes up to the boundary, the crossing inside the fetch of the next, and the bytes behind the field. -/
theorem literalBytesAcross : Obligations.LiteralBytesAcross := by
  intro m e w w1 a b hc ha hb hcross hend
  have hbefore := takeBytes_of_le_readLimit (m := m) (e := e) (w := w) (n := a)
    (by rw [readLimit_of_crossBoundary hc hcross, ha])
  obtain ⟨b, rfl⟩ : ∃ k, b = k + 1 := ⟨b - 1, by omega⟩
  have hin := inByte_of_lt_readLimit (m := m) (e := e) (w := w1) (by omega)
  have hoff : w1.inByte ≠ w1.nextBnd := by simpa [onBoundary, hc] using hin.offBoundary
  have hfetch := fetchByte_of_crossing (w := { w with inByte := w.inByte + a }) hc ha hcross hoff
  have hbehind : takeBytes m e (b + 1) { w with inByte := w.inByte + a } = takeBytes m e (b + 1) w1 := by
    simp only [takeBytes, takeByte, hfetch]
  rw [takeBytes_add (b + 1) hbefore, hbehind, takeBytes_of_le_readLimit hend]

end Sys2Proof.Machine

/-! A symbol's fields in the logical stream (O16, O20). `NextBits` says what the next bits from a cursor are, wherever they lie;
a description of bit fields depends on them alone. The bits before a boundary and those behind its field follow each other. -/

namespace Sys2Proof.Machine

/-! ### The logical stream -/

/-- The next bits of the logical stream from `w` are these, and the cursor behind them is the last one (spec R81). -/
inductive NextBits (m : Memory) (e : Env) : Work → List Bool → Work → Prop where
  | nil (w : Work) : NextBits m e w [] w
  | cons {w w1 w2 : Work} {b : Bool} {bs : List Bool} (h : takeBit m e w = .ok (b.toNat, w1))
      (hs : NextBits m e w1 bs w2) : NextBits m e w (b :: bs) w2

section
variable {m : Memory} {e : Env} {w w1 w2 : Work} {bs cs : List Bool}

theorem NextBits.append (hb : NextBits m e w bs w1) (hc : NextBits m e w1 cs w2) : NextBits m e w (bs ++ cs) w2 := by
  induction hb with
  | nil => exact hc
  | cons h _ ih => exact .cons h (ih hc)

theorem NextBits.split (h : NextBits m e w (bs ++ cs) w2) : ∃ w1, NextBits m e w bs w1 ∧ NextBits m e w1 cs w2 := by
  induction bs generalizing w with
  | nil => exact ⟨w, .nil w, h⟩
  | cons b bs ih =>
    cases h with
    | cons hb hs =>
      obtain ⟨w1, h1, h2⟩ := ih hs
      exact ⟨w1, .cons hb h1, h2⟩

/-- The bits that can be read without a crossing are next. -/
theorem nextBits_of_bitsAhead (hw : w.bitOff < 8) (h : bitsAhead m e w = bs ++ cs) :
    NextBits m e w bs (advance w bs.length) := by
  induction bs generalizing w with
  | nil => rw [List.length_nil, advance_zero hw]; exact .nil w
  | cons b bs ih =>
    obtain ⟨hbit, hrest⟩ := takeBit_of_bitsAhead_eq_cons hw h
    have hs := ih (by rw [bitOff_advance]; omega) hrest
    rw [advance_advance, Nat.add_comm 1] at hs
    exact .cons hbit hs

/-- Cursors from which the same byte is fetched have the same bits next (spec R111). -/
theorem NextBits.of_fetchByte (hf : fetchByte m e w = fetchByte m e w1) (hne : bs ≠ []) (h : NextBits m e w1 bs w2) :
    NextBits m e w bs w2 := by
  cases h with
  | nil => contradiction
  | cons hb hs => exact .cons (by rw [takeBit, hf]; exact hb) hs

/-- A field is the next bits as a number (spec R83). -/
theorem NextBits.take {n v : Nat} (hv : v < 2 ^ n) (h : NextBits m e w (natBits n v) w1) :
    Machine.take m e n w = .ok (v, w1) := by
  induction n generalizing w v with
  | zero =>
    obtain rfl : v = 0 := by simpa using hv
    cases h; rfl
  | succ n ih =>
    rw [natBits] at h
    cases h with
    | cons hb hs =>
      have hrest := ih (by rw [Nat.pow_succ] at hv; omega) hs
      have hvalue : (decide (v % 2 = 1)).toNat + 2 * (v / 2) = v := by
        rcases Nat.mod_two_eq_zero_or_one v with h | h <;> simp [h] <;> omega
      rw [Machine.take, hb]
      simp only [hrest, hvalue]

/-- A field that needs more bits than can be read fails as the fetch behind them does (spec R82). -/
theorem NextBits.take_eq_error {n : Nat} {st : Status} (hn : bs.length < n) (h : NextBits m e w bs w1)
    (hend : fetchByte m e w1 = .error st) : Machine.take m e n w = .error st := by
  induction h generalizing n with
  | nil =>
    obtain ⟨n, rfl⟩ : ∃ k, n = k + 1 := ⟨n - 1, by simp at hn; omega⟩
    rw [Machine.take, takeBit, hend]
  | cons hb _ ih =>
    obtain ⟨n, rfl⟩ : ∃ k, n = k + 1 := ⟨n - 1, by simp at hn; omega⟩
    rw [Machine.take, hb]
    simp only [ih (by simpa using hn) hend]

end

/-! ### Descriptions of bit fields -/

/-- A description that reads bit fields only: no pad and no whole bytes, so that it does not ask how the cursor is
aligned. -/
inductive Fields {α : Type} : Parse α → Prop where
  | done (a : α) : Fields (.done a)
  | take {n : Nat} {k : Nat → Parse α} (h : ∀ v, Fields (k v)) : Fields (.take n k)

section
variable {α : Type} {n : Nat}

theorem Fields.takeOpt {k : Nat → Parse α} (h : ∀ v, Fields (k v)) : Fields (Parse.takeOpt n k) := by
  unfold Parse.takeOpt; split
  · exact h 0
  · exact .take h

theorem Fields.readDistance {k : BitVec 5 → BitVec 31 → Parse α} (h : ∀ a b, Fields (k a b)) :
    Fields (Sys2Proof.readDistance k) := .take fun _ => .takeOpt fun _ => h _ _

/-- A symbol's coded fields (spec R52). -/
theorem fields_symbolParse (f : Format) : Fields (symbolParse f) := by
  refine .take fun sel => ?_
  split
  · refine .take fun idx => ?_
    split
    · exact .take fun x => .readDistance fun _ _ => .done _
    · exact .takeOpt fun x => .readDistance fun _ _ => .done _
  · refine .take fun idx => .takeOpt fun x => ?_
    split
    · exact .done _
    · exact .readDistance fun _ _ => .done _

variable {m : Memory} {e : Env} {p : Parse α} {pos : Nat} {bs : List Bool}

/-- What bits decode to is what the reader answers where they are next (spec R81, R90). -/
theorem Fields.runParse_eq_ok (hp : Fields p) {a : α} {rest : List Bool} (h : p.runBits pos bs = .ok (a, rest)) :
    ∃ used, bs = used ++ rest ∧ ∀ w w', NextBits m e w used w' → runParse m e p w = .ok (a, w') := by
  induction hp generalizing pos bs with
  | done a =>
    obtain ⟨rfl, rfl⟩ := by simpa [Parse.runBits] using h
    exact ⟨[], rfl, fun w w' hw => by cases hw; rfl⟩
  | @take n k _ ih =>
    rw [Parse.runBits] at h
    cases ht : takeBits n bs with
    | none => simp [ht] at h
    | some q =>
      obtain ⟨v, r⟩ := q
      obtain ⟨hv, rfl⟩ := takeBits_eq_some ht
      simp only [ht] at h
      obtain ⟨used, rfl, hrun⟩ := ih v h
      refine ⟨natBits n v ++ used, (List.append_assoc ..).symm, fun w w' hw => ?_⟩
      obtain ⟨w1, hfield, hrest⟩ := hw.split
      rw [runParse, hfield.take hv]
      exact hrun w1 w' hrest

/-- Where the bits next do not suffice, the reader fails as the fetch behind them does (spec R82). -/
theorem Fields.runParse_eq_error (hp : Fields p) {r : Reject} {w w' : Work} {st : Status}
    (h : p.runBits pos bs = .error r) (hbits : NextBits m e w bs w') (hend : fetchByte m e w' = .error st) :
    runParse m e p w = .error st := by
  induction hp generalizing pos bs w with
  | done a => simp [Parse.runBits] at h
  | @take n k _ ih =>
    rw [Parse.runBits] at h
    cases ht : takeBits n bs with
    | none => rw [runParse, hbits.take_eq_error (takeBits_eq_none.1 ht) hend]
    | some q =>
      obtain ⟨v, r⟩ := q
      obtain ⟨hv, rfl⟩ := takeBits_eq_some ht
      simp only [ht] at h
      obtain ⟨w1, hfield, hrest⟩ := hbits.split
      rw [runParse, hfield.take hv]
      exact ih v h hrest

end

/-! ### Across a boundary -/

/-- The working copy moved up to its boundary. -/
def toBoundary (w : Work) : Work := { w with inByte := w.nextBnd, bitOff := 0 }

section
variable {m : Memory} {e : Env} {w w1 : Work}

/-- The bits before a boundary: their number is the way to it. -/
theorem advance_toBoundary (hw : w.bitOff < 8) (hlt : w.inByte < w.nextBnd) :
    advance w (8 * w.nextBnd - bitPos w) = toBoundary w := by
  have hend : bitPos w + (8 * w.nextBnd - bitPos w) = 8 * w.nextBnd := by unfold bitPos; omega
  unfold advance toBoundary
  rw [hend]
  simp

/-- Where nothing ends a read before the boundary, the bits up to it are next, and the cursor then stands on it. -/
theorem nextBits_before_boundary (hw : w.bitOff < 8) (hlt : w.inByte < w.nextBnd) (hlimit : readLimit e w = w.nextBnd) :
    NextBits m e w (bitsAhead m e w) (toBoundary w) := by
  have h := nextBits_of_bitsAhead (m := m) (e := e) hw (List.append_nil _).symm
  rwa [bitsAhead_length, hlimit, advance_toBoundary hw hlt] at h

/-- A crossing leaves the bit offset (spec R110). -/
theorem crossBoundary_bitOff (h : crossBoundary m e w = .ok w1) : w1.bitOff = w.bitOff := by
  obtain ⟨-, v, hv⟩ := crossBoundary_eq_ok h
  rw [(contApply_eq_ok.1 hv).2]

/-- Behind its field a boundary's bits follow those before it (spec R81, R111). -/
theorem nextBits_across_boundary (hc : e.chunked = true) (hw : w.bitOff < 8) (hlt : w.inByte < w.nextBnd)
    (hcross : crossBoundary m e (toBoundary w) = .ok w1) {bs rest : List Bool} (hb : bitsAhead m e w1 = bs ++ rest)
    (hne : bs ≠ []) : NextBits m e w (bitsAhead m e w ++ bs) (advance w1 bs.length) := by
  have h0 : w1.bitOff = 0 := crossBoundary_bitOff hcross
  have hlen : bs.length ≤ (bitsAhead m e w1).length := by simp [hb]
  have hpos := List.length_pos_iff.2 hne
  rw [bitsAhead_length, bitPos] at hlen
  have hin := inByte_of_lt_readLimit (m := m) (e := e) (w := w1) (by omega)
  have hoff : w1.inByte ≠ w1.nextBnd := by simpa [onBoundary, hc] using hin.offBoundary
  have hfetch := fetchByte_of_crossing (w := toBoundary w) hc rfl hcross hoff
  exact (nextBits_before_boundary hw hlt (readLimit_of_crossBoundary (w := toBoundary w) hc hcross)).append
    (.of_fetchByte hfetch hne (nextBits_of_bitsAhead (by omega) hb))

/-- Where the bits ahead end off a boundary, the fetch behind them fails as the checks of the byte there do (spec R82). -/
theorem fetchByte_behind_bitsAhead {st : Status} (hw : w.bitOff < 8)
    (hoff : e.chunked = true → w.inByte ≠ w.nextBnd ∧ readLimit e w < w.nextBnd)
    (hk : byteChecks e (max w.inByte (readLimit e w)) = some st) :
    fetchByte m e (advance w (bitsAhead m e w).length) = .error st := by
  have hat : (advance w (bitsAhead m e w).length).inByte = max w.inByte (readLimit e w) := by
    rw [bitsAhead_length]
    simp only [advance, bitPos]
    omega
  have hb : onBoundary e (advance w (bitsAhead m e w).length) = false := by
    cases hc : e.chunked with
    | false => exact onBoundary_of_not_chunked hc
    | true =>
      have hne : max w.inByte (readLimit e w) ≠ w.nextBnd := by have := hoff hc; omega
      simp only [onBoundary, hc, hat, Bool.true_and, beq_eq_false_iff_ne]
      exact hne
  rw [fetchByte, crossIfNeeded_of_not_onBoundary hb]
  simp only [hat, hk]

end

/-! ### A symbol read across a boundary -/

section
variable {s : State} {w : Work}

/-- The bits up to the boundary, where nothing ends a read before it. -/
theorem bitsAhead_eq_streamBits {m : Memory} {e : Env} (hlimit : readLimit e w = w.nextBnd) :
    bitsAhead m e w = streamBits m e.inMask (bitPos w) (8 * w.nextBnd - bitPos w) := by rw [bitsAhead, hlimit]

/-- The cursor of a symbol read stands on a bit of its byte. -/
theorem bitOff_lt_of_symbolReadAt (h : SymbolReadAt s w) : w.bitOff < 8 := by
  rcases h with ⟨-, -, rfl⟩ | ⟨-, -, hw⟩
  · exact s.inBitoff.isLt
  · exact hw

/-- A symbol whose fields cannot be read fails the step (spec R89, R102). -/
theorem step_of_symbolReadAt_error {st : Status} (h : SymbolReadAt s w) (hb : onBoundary (decodeEnv s) w = false)
    (hp : runParse s.inMem (decodeEnv s) (symbolParse s.format) w = .error st) : step s = .next (failedStep st s) := by
  rcases h with ⟨ha, hl, rfl⟩ | ⟨ha, rfl, -⟩
  · rw [step_of_stop ((fetch_of_off_boundary ha hl hb).trans (fetchSymbol_of_error (s := beginSymbol s) hp)),
      raiseStatus_eq_failedStep (s := beginSymbol s) st (by simp [ha])]
    rfl
  · rw [step_of_stop ((fetch_symbol ha).trans (fetchSymbol_of_error hp)), raiseStatus_eq_failedStep st (by simp [ha])]

/-- So it does where the bits next, wherever they end, do not suffice (spec R82). -/
theorem step_of_bits_run_out {bs : List Bool} {w' : Work} {r : Reject} {st : Status} (h : SymbolReadAt s w)
    (hb : onBoundary (decodeEnv s) w = false) (hdecode : decodeBits s.format .symbol bs = .error r)
    (hbits : NextBits s.inMem (decodeEnv s) w bs w') (hend : fetchByte s.inMem (decodeEnv s) w' = .error st) :
    step s = .next (failedStep st s) :=
  step_of_symbolReadAt_error h hb ((fields_symbolParse s.format).runParse_eq_error hdecode hbits hend)

end

/-- Settles O16: the bits used end behind the field, so that the cursor behind them counts from there. -/
theorem stepRunsSymbolAcross : Obligations.StepRunsSymbolAcross := by
  intro s i rest w1 ha hl hc hlt hcross hdecode hshort
  have hw : (copyWork s).bitOff < 8 := s.inBitoff.isLt
  have hlimit : readLimit (decodeEnv s) (copyWork s) = (copyWork s).nextBnd :=
    readLimit_of_crossBoundary (w := toBoundary (copyWork s)) hc hcross
  have hbefore := bitsAhead_eq_streamBits (m := s.inMem) hlimit
  change (symbolParse s.format).runBits 0 (streamBits s.inMem (decodeEnv s).inMask (bitPos (copyWork s))
    (8 * (copyWork s).nextBnd - bitPos (copyWork s)) ++ _) = _ at hdecode
  rw [← hbefore] at hdecode
  obtain ⟨used, hused, hrun⟩ := (fields_symbolParse s.format).runParse_eq_ok (m := s.inMem) (e := decodeEnv s) hdecode
  rcases List.append_eq_append_iff.1 hused with ⟨bs, rfl, hbs⟩ | ⟨cs, -, rfl⟩
  · rw [hbs, List.length_append] at hshort ⊢
    have hne : bs ≠ [] := by rintro rfl; simp at hshort
    have hp := hrun _ _ (nextBits_across_boundary hc hw hlt hcross hbs hne)
    have hb : onBoundary (decodeEnv s) (copyWork s) = false := by simp [onBoundary, copyWork]; omega
    rw [Nat.add_sub_cancel]
    exact step_of_run ((fetch_of_off_boundary ha hl hb).trans (fetchSymbol_of_ok (s := beginSymbol s) hp))
  · rw [List.length_append] at hshort
    omega

/-- Settles O20, by where the bits end: before the boundary, at it, or behind its field. -/
theorem symbolBitsRunOut : Obligations.SymbolBitsRunOut := by
  intro s w r st h
  have hw := bitOff_lt_of_symbolReadAt h
  have hoffBefore : w.inByte < w.nextBnd → onBoundary (decodeEnv s) w = false := by
    intro hlt
    simp [onBoundary, hlt.ne]
  refine ⟨fun hoff hdecode hk => ?_, fun hc hlt hlimit hdecode hcross => ?_,
    fun w1 hc hlt hcross hne hlimit hdecode hk => ?_⟩
  · have hb : onBoundary (decodeEnv s) w = false := by
      cases hc : s.chunked with
      | false => exact onBoundary_of_not_chunked hc
      | true => simp [onBoundary, (hoff hc).1]
    exact step_of_bits_run_out h hb hdecode (nextBits_of_bitsAhead hw (List.append_nil _).symm)
      (fetchByte_behind_bitsAhead hw hoff hk)
  · have hon : onBoundary (decodeEnv s) (toBoundary w) = true := by simp [onBoundary, toBoundary, hc]
    exact step_of_bits_run_out h (hoffBefore hlt) hdecode (nextBits_before_boundary hw hlt hlimit)
      (fetchByte_of_crossBoundary_error hon hcross)
  · have hlimit' := readLimit_of_crossBoundary (e := decodeEnv s) (w := toBoundary w) hc hcross
    have hbefore := bitsAhead_eq_streamBits (m := s.inMem) (e := decodeEnv s) (w := w) hlimit'
    change decodeBits _ _ (streamBits s.inMem (decodeEnv s).inMask _ _ ++ _) = _ at hdecode
    rw [← hbefore] at hdecode
    have h0 : w1.bitOff = 0 := crossBoundary_bitOff hcross
    have hend := fetchByte_behind_bitsAhead (m := s.inMem) (by omega) (fun _ => ⟨hne, hlimit⟩) hk
    by_cases hnil : bitsAhead s.inMem (decodeEnv s) w1 = []
    · rw [hnil, List.append_nil] at hdecode
      rw [hnil, List.length_nil, advance_zero (by omega),
        ← fetchByte_of_crossing (w := toBoundary w) hc rfl hcross hne] at hend
      exact step_of_bits_run_out h (hoffBefore hlt) hdecode (nextBits_before_boundary hw hlt hlimit') hend
    · exact step_of_bits_run_out h (hoffBefore hlt) hdecode
        (nextBits_across_boundary hc hw hlt hcross (List.append_nil _).symm hnil) hend

end Sys2Proof.Machine

/-! A DECODE resumed (O53). What a symbol step comes to is a value of its own, `SymbolResult`; a result that is not for want of
input or room is the same under larger arguments. So the larger DECODE runs along with the smaller one until that ends, and
from there on it is the resumed one. -/

namespace Sys2Proof.Machine

/-! ### What a symbol step comes to -/

/-- What a symbol step comes to: the status it raises, or what it commits (spec R89): its pending writes, the working copy
that the cursor registers become, and its length. -/
abbrev SymbolOutcome := Except Status (List (Nat × Byte) × Work × Nat)

/-- A match whose fields have been read up to `w` (spec R97). -/
def matchOutcome (s : State) (w : Work) (n d : Nat) : SymbolOutcome :=
  match matchChecks s n d with
  | some st => .error st
  | none => .ok (pendingWrites s.outMask.toNat s.outCur.toNat
      (matchBytes s.outMem s.outMask.toNat s.outCur.toNat d n), w, n)

/-- A literal run whose fields have been read up to `w` (spec R96). -/
def literalOutcome (s : State) (w : Work) (n : Nat) : SymbolOutcome :=
  match literalChecks s n with
  | some st => .error st
  | none =>
    match takeBytes s.inMem (decodeEnv s) n (alignWork w) with
    | .error st => .error st
    | .ok (bs, w') => .ok (pendingWrites s.outMask.toNat s.outCur.toNat bs, w', n)

/-- The symbol step from the cursor registers comes to this (spec R89). -/
inductive SymbolResult (s : State) : SymbolOutcome → Prop where
  | unread {st : Status} (hr : runParse s.inMem (decodeEnv s) (symbolParse s.format) (copyWork s) = .error st) :
      SymbolResult s (.error st)
  | matched {i : Instr} {w : Work} {n d : Nat}
      (hr : runParse s.inMem (decodeEnv s) (symbolParse s.format) (copyWork s) = .ok (i, w))
      (ho : matchOperands s.format i = some (n, d)) : SymbolResult s (matchOutcome s w n d)
  | literal {i : Instr} {w : Work} {n : Nat}
      (hr : runParse s.inMem (decodeEnv s) (symbolParse s.format) (copyWork s) = .ok (i, w))
      (ho : literalOperand s.format i = some n) : SymbolResult s (literalOutcome s w n)

/-- The state that an outcome leaves. -/
def finish (s : State) : SymbolOutcome → State
  | .error st => failedStep st s
  | .ok (p, w, n) => commitSymbol p w n s

section
variable {s : State} {o : SymbolOutcome}

/-- Every symbol step comes to something. -/
theorem exists_symbolResult (s : State) : ∃ o, SymbolResult s o := by
  cases hr : runParse s.inMem (decodeEnv s) (symbolParse s.format) (copyWork s) with
  | error st => exact ⟨_, .unread hr⟩
  | ok q =>
    rcases operands_of_symbol s.format ((gives_symbolParse _).runParse hr) with ⟨n, d, ho⟩ | ⟨n, ho⟩
    · exact ⟨_, .matched hr ho⟩
    · exact ⟨_, .literal hr ho⟩

/-- CopyMatch comes to `matchOutcome`. -/
theorem copyMatch_eq_finish (hs : s.activity ≠ .init) (w : Work) (f : Fsm) (n d : Nat) :
    copyMatch n d { s with work := w, fsm := f } = .next (finish s (matchOutcome s w n d)) := by
  have hraise : ∀ st, raiseStatus st { s with work := w, fsm := f } = failedStep st s :=
    fun st => raiseStatus_eq_failedStep st hs
  have hchecks : matchChecks { s with work := w, fsm := f } n d = matchChecks s n d := rfl
  unfold copyMatch matchOutcome
  rw [hchecks]
  cases matchChecks s n d with
  | some st => exact congrArg _ (hraise st)
  | none => rfl

/-- CopyLiteralRun comes to `literalOutcome`. -/
theorem copyLiteralRun_eq_finish (hs : s.activity ≠ .init) (w : Work) (f : Fsm) (n : Nat) :
    copyLiteralRun n { s with work := w, fsm := f } = .next (finish s (literalOutcome s w n)) := by
  have hraise : ∀ st, raiseStatus st { s with work := w, fsm := f } = failedStep st s :=
    fun st => raiseStatus_eq_failedStep st hs
  have hchecks : literalChecks { s with work := w, fsm := f } n = literalChecks s n := rfl
  have henv : decodeEnv { s with work := w, fsm := f } = decodeEnv s := rfl
  unfold copyLiteralRun literalOutcome
  rw [hchecks]
  simp only [henv]
  cases literalChecks s n with
  | some st => exact congrArg _ (hraise st)
  | none =>
    cases takeBytes s.inMem (decodeEnv s) n (alignWork w) with
    | error st => exact congrArg _ (hraise st)
    | ok q => rfl

/-- The symbol step is what its result leaves (spec R89). -/
theorem SymbolResult.symbolStep_eq (h : SymbolResult s o) (hs : s.activity ≠ .init) : symbolStep s = finish s o := by
  cases h with
  | unread hr =>
    rw [symbolStep_of_stop (fetchSymbol_of_error (s := beginSymbol s) hr)]
    exact raiseStatus_eq_failedStep _ hs
  | @matched i w n d hr ho =>
    exact symbolStep_of_run (fetchSymbol_of_ok (s := beginSymbol s) hr)
      ((exec_of_matchOperands (s := { s with work := w, fsm := fsmRun .readSymbol (readEvents i) }) ho).trans
        (copyMatch_eq_finish hs w _ n d))
  | @literal i w n hr ho =>
    exact symbolStep_of_run (fetchSymbol_of_ok (s := beginSymbol s) hr)
      ((exec_of_literalOperand (s := { s with work := w, fsm := fsmRun .readSymbol (readEvents i) }) ho).trans
        (copyLiteralRun_eq_finish hs w _ n))

/-- The result does not depend on the status before it. -/
theorem SymbolResult.withStatus (h : SymbolResult s o) (st : Status) : SymbolResult { s with status := st } o := by
  cases h with
  | unread hr => exact .unread hr
  | matched hr ho => exact .matched (s := { s with status := st }) hr ho
  | literal hr ho => exact .literal (s := { s with status := st }) hr ho

end

/-! ### Larger arguments -/

/-- The state of a DECODE with other arguments, at the same point of its loop, and with another status before its own. -/
def regranted (ai ao : Word) (st : Status) (s : State) : State :=
  enterDecode { s with arg0 := ai, arg1 := ao, status := st }

/-- The arguments grant no less than the latches of a DECODE in progress. -/
structure Grants (ai ao : Word) (s : State) : Prop where
  availIn : s.availIn.toNat ≤ (regranted ai ao s.status s).availIn.toNat
  availOut : s.availOut.toNat ≤ (regranted ai ao s.status s).availOut.toNat

section
variable {s : State} {o : SymbolOutcome} {ai ao : Word} {st : Status}

/-- Check 5 that passes passes with more room (spec R98). -/
theorem checkRoom_regranted (h : Grants ai ao s) {n : Nat} (hne : checkRoom s n ≠ some .needMoreOutput) :
    checkRoom (regranted ai ao st s) n = checkRoom s n := by
  have hnone : checkRoom s n = none := by
    unfold checkRoom at hne ⊢
    split_ifs at hne ⊢
    · exact absurd rfl hne
    · rfl
  rw [hnone, checkRoom_eq_none]
  exact (checkRoom_eq_none.1 hnone).trans h.availOut

/-- The first of two checks is the same where each is. -/
theorem firstOf_congr {a b b' : Option Status} {x : Status} (h : firstOf a b ≠ some x) (hb : b ≠ some x → b' = b) :
    firstOf a b' = firstOf a b := by
  cases a with
  | some st => rfl
  | none => exact hb h

/-- The checks of a match do not see more room, unless room is what they miss: check 5 is the last (spec R98). -/
theorem matchChecks_regranted (h : Grants ai ao s) {n d : Nat} (hne : matchChecks s n d ≠ some .needMoreOutput) :
    matchChecks (regranted ai ao st s) n d = matchChecks s n d :=
  firstOf_congr hne fun hne => firstOf_congr hne (checkRoom_regranted h)

theorem literalChecks_regranted (h : Grants ai ao s) {n : Nat} (hne : literalChecks s n ≠ some .needMoreOutput) :
    literalChecks (regranted ai ao st s) n = literalChecks s n := firstOf_congr hne (checkRoom_regranted h)

theorem matchOutcome_regranted (h : Grants ai ao s) {w : Work} {n d : Nat}
    (hout : matchOutcome s w n d ≠ .error .needMoreOutput) :
    matchOutcome (regranted ai ao st s) w n d = matchOutcome s w n d := by
  have hk : matchChecks s n d ≠ some .needMoreOutput := fun hk => hout (by simp [matchOutcome, hk])
  rw [matchOutcome, matchChecks_regranted h hk]
  rfl

theorem literalOutcome_regranted (h : Grants ai ao s) {w : Work} {n : Nat}
    (hin : literalOutcome s w n ≠ .error .needMoreInput) (hout : literalOutcome s w n ≠ .error .needMoreOutput) :
    literalOutcome (regranted ai ao st s) w n = literalOutcome s w n := by
  have hk : literalChecks s n ≠ some .needMoreOutput := fun hk => hout (by simp [literalOutcome, hk])
  rw [literalOutcome, literalChecks_regranted h hk, literalOutcome]
  cases hc : literalChecks s n with
  | some st => rfl
  | none =>
    have hb : takeBytes s.inMem (decodeEnv s) n (alignWork w) ≠ .error .needMoreInput :=
      fun hb => hin (by simp [literalOutcome, hc, hb])
    have hsame : takeBytes (regranted ai ao st s).inMem (decodeEnv (regranted ai ao st s)) n (alignWork w) =
        takeBytes s.inMem (decodeEnv s) n (alignWork w) := takeBytes_withAvail h.availIn hb
    simp only [hsame]
    rfl

/-- A symbol step that is not short of input or room comes to the same with more (spec R88). -/
theorem SymbolResult.regranted (hr : SymbolResult s o) (h : Grants ai ao s) (hin : o ≠ .error .needMoreInput)
    (hout : o ≠ .error .needMoreOutput) : SymbolResult (regranted ai ao st s) o := by
  have hsame : ∀ x, x ≠ .error .needMoreInput →
      runParse s.inMem (decodeEnv s) (symbolParse s.format) (copyWork s) = x →
      runParse (Machine.regranted ai ao st s).inMem (decodeEnv (Machine.regranted ai ao st s))
        (symbolParse (Machine.regranted ai ao st s).format) (copyWork (Machine.regranted ai ao st s)) = x := by
    rintro x hx rfl
    exact runParse_withAvail h.availIn hx
  cases hr with
  | unread hr => exact .unread (hsame _ (fun he => hin (by cases he; rfl)) hr)
  | matched hr ho =>
    rw [← matchOutcome_regranted (st := st) h hout]
    exact .matched (hsame _ nofun hr) ho
  | literal hr ho =>
    rw [← literalOutcome_regranted (st := st) h hin hout]
    exact .literal (hsame _ nofun hr) ho

/-- The gates that open for the smaller DECODE open for the larger (spec R112, R113). -/
theorem loopTest_regranted (h : Grants ai ao s) (hl : loopTest s = none) : loopTest (regranted ai ao st s) = none := by
  obtain ⟨hc, hin, hout⟩ := loopTest_eq_none.1 hl
  exact loopTest_eq_none.2 ⟨hc, hin.trans h.availIn, hout.trans h.availOut⟩

/-- A symbol commits alike in both. -/
theorem finish_ok_regranted (q : List (Nat × Byte) × Work × Nat) :
    finish (regranted ai ao st s) (.ok q) = regranted ai ao st (finish s (.ok q)) := rfl

/-- A commit leaves the grant. -/
theorem Grants.finish_ok (h : Grants ai ao s) (q : List (Nat × Byte) × Work × Nat) :
    Grants ai ao (finish s (.ok q)) := ⟨h.availIn, h.availOut⟩

/-- At the top of a turn no command is latched, the latches of R19 hold and no working copy is in force. -/
theorem Inv.turn (h : Inv s) (ha : s.activity = .decode) : s.cmd = 0 ∧ LatchInv s ∧ s.work = Work.none := by
  have hact := h.activity
  unfold ActivityInv at hact
  rwa [ha] at hact

/-- Other arguments keep the invariant. -/
theorem Inv.regranted (h : Inv s) (ha : s.activity = .decode) : Inv (regranted ai ao st s) := by
  obtain ⟨hcmd, hlatch, hwork⟩ := h.turn ha
  exact h.of_same rfl rfl ⟨rfl, rfl⟩ rfl h.fsm (fun hp => ⟨hp, rfl⟩)
    ⟨hcmd, ⟨hlatch.phase, toNat_ofNat_min_le _ _, toNat_ofNat_min_le _ _⟩, hwork⟩

end

/-! ### How a DECODE ends -/

/-- A DECODE ended: status and phase, and what the model puts into its own fields and the latches (log entries 2, 4, 14). -/
def ended (st : Status) (ph : Phase) (s : State) : State :=
  { s with status := st, phase := ph, activity := .idle, work := Work.none, availIn := 0, availOut := 0 }

section
variable {s : State} {ai ao : Word} {st : Status}

theorem failedStep_eq_ended (h : Inv s) (ha : s.activity = .decode) (st : Status) :
    failedStep st s = ended st (if st = .corruptStream then .failed else .active) s := by
  rw [failedStep_eq h, h.phase_of_decoding (.inl ha)]
  rfl

theorem stopLoop_eq_ended (h : Inv s) (ha : s.activity = .decode) (st : Status) :
    stopLoop st s = ended st (if st = .done then .done else .active) s := by
  rw [stopLoop, h.phase_of_decoding (.inl ha)]
  rfl

/-- Issued in `Active`, DECODE enters its loop (spec R77). -/
theorem step_issueDecode (ha : s.activity = .idle) (hp : s.phase = .active) :
    step (issueDecode ai ao s) = .next (enterDecode (taken (issueDecode ai ao s))) :=
  (step_of_run (fetch_idle_decode (s := issueDecode ai ao s) ha rfl)).trans (execDecode_of_active hp)

/-- Issued again where the last one ended in `Active`, DECODE is back at the point of the loop where that ended (spec R131). -/
theorem step_issueDecode_ended_active (h : Inv s) (ha : s.activity = .decode) :
    step (issueDecode ai ao (ended st .active s)) = .next (regranted ai ao st s) := by
  obtain ⟨hcmd, hlatch, hwork⟩ := h.turn ha
  rw [step_issueDecode rfl rfl]
  simp only [regranted, enterDecode, taken, issueDecode, ended, hcmd, hlatch.phase, hwork]

/-- Issued again after `Done` or `CorruptStream`, DECODE answers the same and changes nothing (spec R77). -/
theorem step_issueDecode_ended (h : Inv s) (ha : s.activity = .decode) {ph : Phase}
    (hph : st = .done ∧ ph = .done ∨ st = .corruptStream ∧ ph = .failed) :
    step (issueDecode ai ao (ended st ph s)) = .next (ended st ph (regranted ai ao st s)) := by
  obtain ⟨hcmd, -⟩ := h.decoding (.inl ha)
  have hrun := step_of_run (fetch_idle_decode (s := issueDecode ai ao (ended st ph s)) rfl rfl)
  obtain ⟨-, hfailed, hdone⟩ := execDecode_of_not_active (s := taken (issueDecode ai ao (ended st ph s)))
  rcases hph with ⟨rfl, rfl⟩ | ⟨rfl, rfl⟩
  · refine (hrun.trans (hdone rfl)).trans ?_
    simp only [regranted, enterDecode, taken, issueDecode, ended, hcmd, h.nbits]
  · refine (hrun.trans (hfailed rfl)).trans ?_
    simp only [regranted, enterDecode, taken, issueDecode, ended, hcmd, h.nbits]

theorem ended_not_busy (h : Inv s) (ha : s.activity = .decode) (st : Status) (ph : Phase) :
    (ended st ph s).busy = false := busy_eq_false.2 ⟨rfl, (h.decoding (.inl ha)).1⟩

end

/-! ### Runs -/

section
variable {s t u : State}

/-- A run that answers has taken its first step, on any machine. -/
theorem core_run_succ_eq_next (M : Host.Core) {s t : M.State} {k : Nat} (h : M.run (k + 1) s = .next t) :
    ∃ s', M.step s = .next s' ∧ M.run k s' = .next t := by
  rw [Host.Core.run] at h
  cases hs : M.step s with
  | next s' => exact ⟨s', rfl, by simpa only [hs] using h⟩
  | fault r => simp [hs] at h
  | refused r => simp [hs] at h

/-- A run of no step answers where it is. -/
theorem eq_of_run_zero (h : Host.Core.run Sys2Proof.core 0 s = .next t) : s = t := Host.Outcome.next.inj h

/-- A run that has reached a command boundary stays there. -/
theorem run_add_of_idle {k : Nat} (h : Host.Core.run Sys2Proof.core k s = .next t) (hb : t.busy = false) (j : Nat) :
    Host.Core.run Sys2Proof.core (k + j) s = .next t := by
  induction k generalizing s with
  | zero =>
    obtain rfl := eq_of_run_zero h
    rw [Nat.zero_add]
    exact run_idle j hb
  | succ k ih =>
    obtain ⟨s', hs, h⟩ := core_run_succ_eq_next _ h
    rw [Nat.add_right_comm]
    exact (run_succ (k + j) hs).trans (ih h)

/-- A command ends in one state. -/
theorem CommandRuns.unique (ht : CommandRuns s t) (hu : CommandRuns s u) : t = u := by
  obtain ⟨j, hj, hbt⟩ := ht
  obtain ⟨k, hk, hbu⟩ := hu
  have h1 := run_add_of_idle hj hbt k
  have h2 := run_add_of_idle hk hbu j
  rw [Nat.add_comm, h1] at h2
  exact Host.Outcome.next.inj h2

/-- A command that has begun ends where the whole of it does. -/
theorem CommandRuns.after_step (h : step s = .next t) (hu : CommandRuns s u) (hb : s.busy = true) : CommandRuns t u := by
  obtain ⟨k, hk, hbu⟩ := hu
  cases k with
  | zero =>
    obtain rfl := eq_of_run_zero hk
    rw [hb] at hbu; contradiction
  | succ k => exact ⟨k, (run_succ k h).symm.trans hk, hbu⟩

/-- The turn that a symbol step takes, before a run. -/
theorem LastStep.commandRuns {s1 : State} (h : LastStep s s1) (hu : CommandRuns (symbolStep s) u) : CommandRuns s u := by
  rcases h.reached with rfl | hx
  · exact .of_step h.step hu
  · exact .of_step hx (.of_step h.step hu)

/-- A turn whose tests pass is its symbol step. -/
theorem CommandRuns.of_symbolStep (hinv : Inv s) (ha : s.activity = .decode) (hl : loopTest s = none)
    (hu : CommandRuns (symbolStep s) u) : CommandRuns s u := by
  obtain ⟨s1, hlast⟩ := exists_lastStep hinv ha hl
  exact hlast.commandRuns hu

end

/-! ### The status before a DECODE's own -/

section
variable {s u : State} {ai ao : Word}

/-- The loop does not read the status; it ends with one of its own, or has turns left to take. -/
theorem decodeLoop_withStatus (fuel : Nat) (ha : s.activity = .decode) (st : Status) :
    decodeLoop fuel { s with status := st } = decodeLoop fuel s ∨ (decodeLoop fuel s).activity = .decode := by
  induction fuel generalizing s with
  | zero => exact .inr ha
  | succ fuel ih =>
    have htest : loopTest { s with status := st } = loopTest s := rfl
    cases hl : loopTest s with
    | some st' =>
      rw [decodeLoop_of_some hl, decodeLoop_of_some (htest.trans hl)]
      exact .inl rfl
    | none =>
      obtain ⟨o, ho⟩ := exists_symbolResult s
      have hstep := ho.symbolStep_eq (by simp [ha])
      have hstep' := (ho.withStatus st).symbolStep_eq (by simp [ha])
      cases o with
      | error st' =>
        have hidle : (failedStep st' s).activity ≠ .decode := nofun
        rw [decodeLoop_of_ends hl (by rw [hstep]; exact hidle),
          decodeLoop_of_ends (htest.trans hl) (by rw [hstep']; exact hidle), hstep, hstep']
        exact .inl rfl
      | ok q =>
        rw [decodeLoop_of_goes_on hl (by rw [hstep]; rfl),
          decodeLoop_of_goes_on (htest.trans hl) (by rw [hstep']; rfl), hstep, hstep']
        exact ih (s := finish s (.ok q)) rfl

/-- Where a DECODE ends does not depend on the status before it. -/
theorem CommandRuns.of_status (hinv : Inv s) (ha : s.activity = .decode) {st st' : Status}
    (hu : CommandRuns (regranted ai ao st s) u) : CommandRuns (regranted ai ao st' s) u := by
  have hruns := fun st => stepsAreDecodeLoop (regranted ai ao st s) (s.decompSize.toNat - s.outCur.toNat + 1)
    (hinv.regranted ha) rfl le_rfl
  rw [hu.unique (hruns st)]
  rcases decodeLoop_withStatus _ (s := regranted ai ao st' s) rfl st with h | h
  · exact h ▸ hruns st'
  · obtain ⟨-, -, hb⟩ := hruns st'
    rw [(busy_eq_false.1 hb).1] at h
    contradiction

end

/-! ### Resumption -/

section
variable {s u : State} {ai ao : Word}

/-- Where the smaller DECODE has ended in `Active`, the resumed one goes on as the larger one does. -/
theorem CommandRuns.resumed_active (hinv : Inv s) (ha : s.activity = .decode) {st st' : Status}
    (hu : CommandRuns (issueDecode ai ao (ended st .active s)) u) : CommandRuns (regranted ai ao st' s) u :=
  (hu.after_step (step_issueDecode_ended_active hinv ha) rfl).of_status hinv ha

/-- Where it has ended for good, the resumed one answers the same as the larger one, which ends there too. -/
theorem CommandRuns.resumed_ended (hinv : Inv s) (ha : s.activity = .decode) {st : Status} {ph : Phase}
    (hph : st = .done ∧ ph = .done ∨ st = .corruptStream ∧ ph = .failed)
    (hu : CommandRuns (issueDecode ai ao (ended st ph s)) u) : u = ended st ph (regranted ai ao st s) :=
  (hu.after_step (step_issueDecode_ended hinv ha hph) rfl).unique
    (.of_idle (ended_not_busy (hinv.regranted ha) rfl st ph))

/-- A DECODE with a larger grant from the same point of the loop reaches what the smaller one and then the larger one
reach. -/
theorem CommandRuns.resumed (fuel : Nat) (hinv : Inv s) (ha : s.activity = .decode) (hg : Grants ai ao s) {st : Status}
    (hfuel : s.decompSize.toNat - s.outCur.toNat + 1 ≤ fuel)
    (hu : CommandRuns (issueDecode ai ao (decodeLoop fuel s)) u) : CommandRuns (regranted ai ao st s) u := by
  induction fuel generalizing s with
  | zero => omega
  | succ fuel ih =>
    have hinv' : Inv (regranted ai ao st s) := hinv.regranted ha
    cases hl : loopTest s with
    | some st' =>
      rw [decodeLoop_of_some hl, stopLoop_eq_ended hinv ha] at hu
      by_cases hdone : st' = .done
      · subst hdone
        obtain rfl := hu.resumed_ended hinv ha (.inl ⟨rfl, rfl⟩)
        have hcomplete : s.outCur = s.decompSize := by rcases loopTest_eq_some hl with h | h | h <;> simp_all
        refine .of_step (step_of_loopTest rfl (loopTest_of_complete hcomplete)) ?_
        rw [stopLoop_eq_ended hinv' rfl]
        exact .of_idle (ended_not_busy hinv' rfl _ _)
      · rw [if_neg hdone] at hu
        exact hu.resumed_active hinv ha
    | none =>
      obtain ⟨o, ho⟩ := exists_symbolResult s
      have hstep := ho.symbolStep_eq (by simp [ha])
      have hl' : loopTest (regranted ai ao st s) = none := loopTest_regranted hg hl
      cases o with
      | error st' =>
        have hfail : symbolStep s = failedStep st' s := hstep
        rw [decodeLoop_of_ends hl (by rw [hfail]; nofun), hfail, failedStep_eq_ended hinv ha] at hu
        by_cases hcorrupt : st' = .corruptStream
        · subst hcorrupt
          obtain rfl := hu.resumed_ended hinv ha (.inr ⟨rfl, rfl⟩)
          refine .of_symbolStep hinv' rfl hl' ?_
          rw [(ho.regranted hg nofun nofun).symbolStep_eq nofun, finish, failedStep_eq_ended hinv' rfl]
          exact .of_idle (ended_not_busy hinv' rfl _ _)
        · rw [if_neg hcorrupt] at hu
          exact hu.resumed_active hinv ha
      | ok q =>
        obtain ⟨s1, hlast⟩ := exists_lastStep hinv ha hl
        have hgoes : (symbolStep s).activity = .decode := by rw [hstep]; rfl
        rw [decodeLoop_of_goes_on hl hgoes] at hu
        have hinvNext := (hlast.inv hinv).2
        obtain ⟨-, hact, -⟩ | ⟨-, hout, hsize⟩ := hlast.cases hinv
        · contradiction
        refine .of_symbolStep hinv' rfl hl' ?_
        rw [(ho.regranted hg nofun nofun).symbolStep_eq nofun, finish_ok_regranted, ← hstep]
        refine ih hinvNext hgoes ?_ ?_ hu
        · rw [hstep]; exact hg.finish_ok q
        · have := outCur_lt_of_loopTest hinv ha hl
          rw [hsize]; omega

end

/-- What a DECODE enters with, and with larger arguments. -/
theorem grants_enterDecode {ai ai' ao ao' : Word} (hai : ai.toNat ≤ ai'.toNat) (hao : ao.toNat ≤ ao'.toNat) (s : State) :
    Grants ai' ao' (enterDecode (taken (issueDecode ai ao s))) := by
  constructor
  · simp only [regranted, enterDecode, taken, issueDecode]
    rw [toNat_ofNat_of_le (Nat.min_le_right _ _), toNat_ofNat_of_le (Nat.min_le_right _ _)]
    omega
  · simp only [regranted, enterDecode, taken, issueDecode]
    rw [toNat_ofNat_of_le (Nat.min_le_right _ _), toNat_ofNat_of_le (Nat.min_le_right _ _)]
    omega

/-- Settles O53: the larger DECODE enters the loop where the smaller one does, and runs along with it. -/
theorem resumedDecode : Obligations.ResumedDecode := by
  intro s t u ai ai' ao ao' hinv hb hp hai hao ht hu
  obtain ⟨ha, -⟩ := busy_eq_false.1 hb
  have hissued : Inv (issueDecode ai ao s) := hinv.of_host hb hinv.inMem ⟨_, _, _, _, _, _, _, rfl⟩
  have hentered := hissued.enterDecode ha hp
  have hloop := stepsAreDecodeLoop _ _ hentered rfl le_rfl
  obtain rfl := ht.unique (.of_step (step_issueDecode ha hp) hloop)
  have hlarger := CommandRuns.resumed (st := s.status) _ hentered rfl (grants_enterDecode hai hao s) le_rfl hu
  exact .of_step (step_issueDecode ha hp) hlarger

end Sys2Proof.Machine

/-! A match and a literal run (O21 to O27, O55): the bytes they produce lie behind `OUT_CUR` as one run of pending writes. Where
the run is no longer than its window each byte reads back at its position; a match that is longer than its window still stores
what a copy in place stores, since a byte is read at most a window's length behind the byte written. -/

namespace Sys2Proof.Machine

/-! ### Positions and offsets -/

/-- Every window mask is one less than a power of two; the unconstrained one is that of all positions of 64 bits. -/
theorem IsWindowMask.eq_two_pow {mask : Nat} (h : IsWindowMask mask) : ∃ k, k ≤ 64 ∧ mask = 2 ^ k - 1 := by
  rcases h with rfl | ⟨k, hk, rfl⟩
  · exact ⟨64, le_rfl, rfl⟩
  · exact ⟨k, by omega, rfl⟩

/-- A window mask fits its register. -/
theorem IsWindowMask.lt {mask : Nat} (h : IsWindowMask mask) : mask < 2 ^ 64 := by
  obtain ⟨k, hk, rfl⟩ := h.eq_two_pow
  have hpow : 2 ^ k ≤ 2 ^ 64 := Nat.pow_le_pow_right (by omega) hk
  have hpos := Nat.two_pow_pos k
  omega

/-- Positions less than a window apart have distinct offsets (spec R37, R40). -/
theorem offsetOf_ne {mask p q : Nat} (h : IsWindowMask mask) (hlt : p < q) (hnear : q < p + (mask + 1)) :
    offsetOf p mask ≠ offsetOf q mask := by
  obtain ⟨k, -, rfl⟩ := h.eq_two_pow
  rw [Nat.sub_add_cancel Nat.one_le_two_pow] at hnear
  rw [offsetOf_pow_two, offsetOf_pow_two]
  intro heq
  have hdvd : 2 ^ k ∣ q - p := (Nat.modEq_iff_dvd' hlt.le).1 heq
  have := Nat.le_of_dvd (by omega) hdvd
  omega

/-! ### A run of bytes stored -/

section
variable {m : Memory} {mask c : Nat} {bs : List Byte}

/-- A run's pending writes keep the canonical form. -/
theorem writeAll_pendingWrites_wf (hm : m.wf) (h : IsWindowMask mask) : (m.writeAll (pendingWrites mask c bs)).wf :=
  Memory.writeAll_wf hm fun x hx => (pendingWrites_le x hx).trans_lt h.lt

/-- A run and one byte more. -/
theorem pendingWrites_concat (mask c : Nat) (bs : List Byte) (b : Byte) :
    pendingWrites mask c (bs ++ [b]) = pendingWrites mask c bs ++ [(offsetOf (c + bs.length) mask, b)] := by
  induction bs generalizing c with
  | nil => rfl
  | cons a bs ih => simp [pendingWrites, ih, Nat.add_assoc, Nat.add_comm 1]

/-- A byte of a run reads back if the run ends within a window's length of it: no later byte has its offset. -/
theorem read_pendingWrites (hm : m.wf) (h : IsWindowMask mask) {i : Nat} (hi : i < bs.length)
    (hend : bs.length ≤ i + (mask + 1)) :
    (m.writeAll (pendingWrites mask c bs)).read (offsetOf (c + i) mask) = bs.getD i Memory.blank := by
  induction bs generalizing m c i with
  | nil => simp at hi
  | cons b bs ih =>
    rw [List.length_cons] at hi hend
    rw [pendingWrites, Memory.writeAll_cons]
    cases i with
    | zero =>
      rw [read_pendingWrites_other _ fun q hq hlt => offsetOf_ne h (by omega) (by omega), Nat.add_zero,
        Memory.read_write_same hm, List.getD_cons_zero]
    | succ i =>
      have hwf := Memory.write_wf (b := b) hm ((offsetOf_le c mask).trans_lt h.lt)
      have hrest := ih (c := c + 1) hwf (i := i) (by omega) (by omega)
      rwa [Nat.add_assoc, Nat.add_comm 1] at hrest

end

/-! ### The copy in place -/

section
variable {m : Memory} {mask c d : Nat}

/-- A copy in place of one byte more. -/
theorem copyInPlace_succ (mask c d n : Nat) (m : Memory) :
    copyInPlace mask c d (n + 1) m =
      (copyInPlace mask c d n m).write (offsetOf (c + n) mask)
        ((copyInPlace mask c d n m).read (offsetOf (c + n - d) mask)) := by
  simp [copyInPlace, List.range_succ]

/-- The byte `n` of a match: it is read where the bytes before it have been stored (spec R97). -/
theorem matchBytes_succ (hm : m.wf) (h : IsWindowMask mask) (hd : 1 ≤ d) (hc : d ≤ c) (hwin : d ≤ mask + 1) (n : Nat) :
    matchBytes m mask c d (n + 1) = matchBytes m mask c d n ++
      [(m.writeAll (pendingWrites mask c (matchBytes m mask c d n))).read (offsetOf (c + n - d) mask)] := by
  rw [matchBytes]
  congr 2
  split
  case isTrue hsrc =>
    obtain ⟨j, hj⟩ := Nat.exists_eq_add_of_le hsrc
    rw [hj, Nat.add_sub_cancel_left]
    exact (read_pendingWrites hm h (by rw [matchBytes_length]; omega) (by rw [matchBytes_length]; omega)).symm
  case isFalse hsrc =>
    refine (read_pendingWrites_other m fun q hq hlt => ?_).symm
    rw [matchBytes_length] at hlt
    exact offsetOf_ne h (by omega) (by omega)

end

/-- Settles O55, by induction on the length: the next byte is read from the memory that both copies have made so far. -/
theorem pendingIsInPlace : Obligations.PendingIsInPlace := by
  intro m mask c d n hm h hd hc hwin
  induction n with
  | zero => rfl
  | succ n ih =>
    rw [matchBytes_succ hm h hd hc hwin, pendingWrites_concat, Memory.writeAll_append, matchBytes_length, ih,
      copyInPlace_succ]
    rfl

/-! ### A symbol that passes its checks -/

/-- A distance is at least 1 (spec R94). -/
theorem one_le_distanceOf (dn : BitVec 5) (df : BitVec 31) : 1 ≤ distanceOf dn df :=
  Nat.le_add_right_of_le Nat.one_le_two_pow

section
variable {s : State} {n d : Nat}

/-- A match that fits passes the checks of a literal run of its length too (spec R98). -/
theorem MatchFits.literalFits (h : MatchFits s n d) : LiteralFits s n := ⟨h.size, h.window, h.room⟩

/-- A match that fits raises nothing (spec R98). -/
theorem MatchFits.matchChecks_eq_none (h : MatchFits s n d) : matchChecks s n d = none :=
  Machine.matchChecks_eq_none.2 ⟨checkLength_eq_none.2 ⟨h.size, h.window⟩,
    checkDistance_eq_none.2 ⟨h.produced, h.inWindow⟩, checkRoom_eq_none.2 h.room⟩

/-- A literal run that fits raises nothing before its bytes (spec R96, R98). -/
theorem LiteralFits.literalChecks_eq_none (h : LiteralFits s n) : literalChecks s n = none :=
  Machine.literalChecks_eq_none.2 ⟨checkLength_eq_none.2 ⟨h.size, h.window⟩, checkRoom_eq_none.2 h.room⟩

/-- A length that passes its checks is no longer than the window (spec R98, checks 1 and 2). -/
theorem LiteralFits.length_le_window (h : LiteralFits s n) : n ≤ s.outMask.toNat + 1 := by
  by_cases hm : s.outMask.toNat = all1
  · have := h.size
    have := s.decompSize.isLt
    unfold all1 at hm; omega
  · exact h.window hm

/-- A committed run leaves `OUT` outside its positions as it was. -/
theorem outUnchangedOutside_commitSymbol {bs : List Byte} (hlen : bs.length = n) (w : Work) :
    OutUnchangedOutside s (commitSymbol (pendingWrites s.outMask.toNat s.outCur.toNat bs) w n s) s.outCur.toNat n := by
  intro a ha
  refine read_pendingWrites_other s.outMem fun q hq hlt => ?_
  obtain ⟨i, rfl⟩ := Nat.exists_eq_add_of_le hq
  exact ha i (by omega)

/-- A committed run that fits its window stores its bytes and changes nothing else (spec R89). -/
theorem literalEffect_commitSymbol {bs : List Byte} (hlen : bs.length = n) (h : LiteralFits s n)
    (hmask : IsWindowMask s.outMask.toNat) (hm : s.outMem.wf) (w : Work) :
    LiteralEffect s (commitSymbol (pendingWrites s.outMask.toNat s.outCur.toNat bs) w n s) bs w := by
  subst hlen
  exact ⟨fun i hi => read_pendingWrites hm hmask hi (h.length_le_window.trans (Nat.le_add_left _ _)),
    outUnchangedOutside_commitSymbol rfl w, rfl⟩

/-- CopyMatch within its bounds: the bytes are those of the positions a distance back, tiled (spec R97). -/
theorem copyMatch_effect (h : MatchFits s n d) (hd : 1 ≤ d) (hmask : IsWindowMask s.outMask.toNat) (hm : s.outMem.wf) :
    ∃ t, copyMatch n d s = .next t ∧ MatchEffect s t n d := by
  have hlen := matchBytes_length s.outMem s.outMask.toNat s.outCur.toNat d n
  have hstore := literalEffect_commitSymbol hlen h.literalFits hmask hm s.work
  obtain ⟨st, hk, -⟩ | ⟨-, hx⟩ := copyMatch_eq n d s
  · rw [h.matchChecks_eq_none] at hk
    contradiction
  · refine ⟨_, hx, fun i hi => ?_, outUnchangedOutside_commitSymbol hlen s.work, rfl⟩
    rw [hstore.stored i (by omega), matchBytes_getD _ _ _ _ _ hd h.produced i hi]

/-- CopyLiteralRun within its bounds, its bytes readable: they are those of the logical stream (spec R96). -/
theorem copyLiteralRun_effect {bs : List Byte} {w : Work} (h : LiteralFits s n) (hmask : IsWindowMask s.outMask.toNat)
    (hm : s.outMem.wf) (hb : takeBytes s.inMem (decodeEnv s) n (alignWork s.work) = .ok (bs, w)) :
    ∃ t, copyLiteralRun n s = .next t ∧ LiteralEffect s t bs w :=
  ⟨_, by rw [copyLiteralRun, h.literalChecks_eq_none, hb], literalEffect_commitSymbol (takeBytes_length hb) h hmask hm w⟩

end

/-! ### The forms -/

/-- The operands of a short match (spec R91). -/
theorem matchOperands_shortForm (f : Format) (x : BitVec 4) (dn : BitVec 5) (df : BitVec 31) :
    ∀ p ∈ shortMatchForms, matchOperands f (p.2 x dn df) = some (codedLength (f.short p.1) x.toNat, distanceOf dn df) := by
  refine List.forall_iff_forall_mem.1 ?_
  simp only [shortMatchForms, List.Forall]
  and_intros <;> rfl

/-- The operands of a long match (spec R99). -/
theorem matchOperands_longForm (f : Format) (x : BitVec 32) (dn : BitVec 5) (df : BitVec 31) :
    ∀ p ∈ longMatchForms, matchOperands f (p.2 x dn df) = some (codedLength (f.long p.1) x.toNat, distanceOf dn df) := by
  refine List.forall_iff_forall_mem.1 ?_
  simp only [longMatchForms, List.cons_append, List.nil_append, List.Forall]
  and_intros <;> rfl

/-- The operand of a literal run (spec R95). -/
theorem literalOperand_form (f : Format) (x : BitVec 32) :
    ∀ p ∈ literalForms, literalOperand f (p.2 x) = some (codedLength (f.long p.1) x.toNat) := by
  refine List.forall_iff_forall_mem.1 ?_
  simp only [literalForms, List.cons_append, List.nil_append, List.Forall]
  and_intros <;> rfl

/-- Settles O21: a short match is CopyMatch with its operands. -/
theorem shortMatchCopies : Obligations.ShortMatchCopies := by
  intro p hp x dn df s h hmask hm
  rw [exec_of_matchOperands (matchOperands_shortForm s.format x dn df p hp)]
  exact copyMatch_effect h (one_le_distanceOf dn df) hmask hm

/-- Settles O22: SMATCHX is CopyMatch with the length of ExtendedRun. -/
theorem extendedMatchCopies : Obligations.ExtendedMatchCopies := by
  intro pfx x dn df s h hmask hm
  have ho : matchOperands s.format (.smatchx pfx x dn df) = some (17 + x.toNat, distanceOf dn df) := rfl
  rw [exec_of_matchOperands ho]
  exact copyMatch_effect h (one_le_distanceOf dn df) hmask hm

/-- Settles O23: a long match is CopyMatch with its operands. -/
theorem longMatchCopies : Obligations.LongMatchCopies := by
  intro p hp x dn df s h hmask hm
  rw [exec_of_matchOperands (matchOperands_longForm s.format x dn df p hp)]
  exact copyMatch_effect h (one_le_distanceOf dn df) hmask hm

/-- Settles O25: a literal run is CopyLiteralRun with its operand. -/
theorem literalRunStoresStream : Obligations.LiteralRunStoresStream := by
  intro p hp x s bytes w h hmask hm hb
  rw [exec_of_literalOperand (literalOperand_form s.format x p hp)]
  exact copyLiteralRun_effect h hmask hm hb

/-- Settles O24: below the limit of a read the logical stream is `IN` from the cursor on. -/
theorem literalRunStores : Obligations.LiteralRunStores := fun p hp x s h hmask hm hlimit =>
  literalRunStoresStream p hp x s _ _ h hmask hm (takeBytes_of_le_readLimit hlimit)

/-! ### A symbol that fails its checks -/

section
variable {s : State} {n d : Nat} {i : Instr} {st : Status}

/-- Checks 1 and 2 raise `CorruptStream` and no other status (spec R98). -/
theorem checkLength_status_eq (h : checkLength s n = some st) : st = .corruptStream := by
  unfold checkLength at h; split_ifs at h <;> simpa using h.symm

/-- When checks 1 and 2 raise (spec R98). -/
theorem checkLength_eq_corruptStream :
    checkLength s n = some .corruptStream ↔ s.outCur.toNat + n > s.decompSize.toNat ∨
      (s.outMask.toNat ≠ all1 ∧ n > s.outMask.toNat + 1) := by
  unfold checkLength; split_ifs <;> simp_all

/-- When checks 3 and 4 raise (spec R98). -/
theorem checkDistance_eq_corruptStream :
    checkDistance s d = some .corruptStream ↔ d > s.outCur.toNat ∨ (s.outMask.toNat ≠ all1 ∧ d > s.outMask.toNat + 1) := by
  unfold checkDistance; split_ifs <;> simp_all

/-- When check 5 raises (spec R98). -/
theorem checkRoom_eq_needMoreOutput : checkRoom s n = some .needMoreOutput ↔ s.outCur.toNat + n > s.availOut.toNat := by
  unfold checkRoom; split_ifs <;> simp_all

/-- A match whose checks raise a status fails the step with it (spec R97, R102). -/
theorem exec_of_matchChecks_some (hs : s.activity ≠ .init) (ho : matchOperands s.format i = some (n, d))
    (h : matchChecks s n d = some st) : exec i s = .next (failedStep st s) := by
  rw [exec_of_matchOperands ho, copyMatch, h]
  exact congrArg _ (raiseStatus_eq_failedStep st hs)

/-- A literal run whose checks raise a status fails the step with it (spec R96, R102). -/
theorem exec_of_literalChecks_some (hs : s.activity ≠ .init) (ho : literalOperand s.format i = some n)
    (h : literalChecks s n = some st) : exec i s = .next (failedStep st s) := by
  rw [exec_of_literalOperand ho, copyLiteralRun, h]
  exact congrArg _ (raiseStatus_eq_failedStep st hs)

/-- The checks of a match raise `CorruptStream` where one of the first four does: only the last raises another status. -/
theorem matchChecks_eq_corruptStream
    (h : checkLength s n = some .corruptStream ∨ checkDistance s d = some .corruptStream) :
    matchChecks s n d = some .corruptStream := by
  unfold matchChecks firstOf
  cases hlen : checkLength s n with
  | some st => rw [checkLength_status_eq hlen]
  | none => rw [h.resolve_left (by simp [hlen])]

end

/-- Settles O26: the checks decide in their order. -/
theorem boundsChecks : Obligations.BoundsChecks := by
  intro i s hs
  refine ⟨fun n d ho => ⟨fun h => ?_, fun hsize hwin hprod hdist hroom => ?_⟩,
    fun n ho => ⟨fun h => ?_, fun hsize hwin hroom => ?_⟩⟩
  · refine exec_of_matchChecks_some hs ho (matchChecks_eq_corruptStream ?_)
    rwa [checkLength_eq_corruptStream, checkDistance_eq_corruptStream, or_assoc]
  · refine exec_of_matchChecks_some hs ho ?_
    rw [matchChecks, checkLength_eq_none.2 ⟨hsize, hwin⟩, checkDistance_eq_none.2 ⟨hprod, hdist⟩]
    exact checkRoom_eq_needMoreOutput.2 hroom
  · refine exec_of_literalChecks_some hs ho ?_
    rw [literalChecks, checkLength_eq_corruptStream.2 h]
    rfl
  · refine exec_of_literalChecks_some hs ho ?_
    rw [literalChecks, checkLength_eq_none.2 ⟨hsize, hwin⟩]
    exact checkRoom_eq_needMoreOutput.2 hroom

/-! ### A literal run with missing bytes -/

/-- A linear read ends where the available input does, with the status of the byte there (spec R82). -/
theorem fetchByte_at_avail {m : Memory} {e : Env} {w : Work} (hc : e.chunked = false) (hmask : e.inMask = all1)
    (ha : e.avail ≤ e.total) (hw : w.inByte = e.avail) :
    fetchByte m e w = .error (if e.avail = e.total then e.totalStatus else .needMoreInput) := by
  rw [fetchByte, crossIfNeeded_of_not_onBoundary (onBoundary_of_not_chunked hc)]
  simp only [byteChecks, hmask, hw]
  split_ifs <;> simp_all
  omega

/-- A run that passes the end of the available input fails there (spec R96, R82). -/
theorem takeBytes_past_avail {m : Memory} {e : Env} {w : Work} {n : Nat} (hc : e.chunked = false) (hmask : e.inMask = all1)
    (ha : e.avail ≤ e.total) (hle : w.inByte ≤ e.avail) (hlt : e.avail < w.inByte + n) :
    takeBytes m e n w = .error (if e.avail = e.total then e.totalStatus else .needMoreInput) := by
  obtain ⟨a, ha'⟩ := Nat.exists_eq_add_of_le hle
  obtain ⟨b, rfl⟩ : ∃ b, n = a + (b + 1) := ⟨n - a - 1, by omega⟩
  have hlimit : readLimit e w = e.avail := by simp [readLimit, hc, hmask, ha]
  have hend := fetchByte_at_avail (m := m) (w := { w with inByte := w.inByte + a }) hc hmask ha ha'.symm
  rw [takeBytes_add (b + 1) (takeBytes_of_le_readLimit (hlimit ▸ ha'.ge)), takeBytes, takeByte, hend]

/-- Settles O27: CopyLiteralRun raises what the fetch of its bytes does. -/
theorem literalBytesMissing : Obligations.LiteralBytesMissing := by
  intro i s n hs ho h
  have hfail : ∀ st, takeBytes s.inMem (decodeEnv s) n (alignWork s.work) = .error st →
      exec i s = .next (failedStep st s) := by
    intro st hb
    rw [exec_of_literalOperand ho, copyLiteralRun, h.literalChecks_eq_none, hb]
    exact congrArg _ (raiseStatus_eq_failedStep st hs)
  refine ⟨hfail, fun hc hmask ha hle hlt => hfail _ ?_⟩
  rw [takeBytes_past_avail hc hmask ha hle hlt]
  simp [BitVec.toNat_inj]

end Sys2Proof.Machine

/-! Fields read by themselves (O10, O11): ExtendedRun at each bit offset, and ReadDistance. -/

namespace Sys2Proof.Machine

/-! ### A field in one byte and in two -/

section
variable {m : Memory} {e : Env} {w : Work}

/-- Without chunks a byte passes its checks exactly when it is below the limit of a read (spec R82). -/
theorem byteChecks_eq_none_iff_lt_readLimit (hc : e.chunked = false) (w : Work) {p : Nat} :
    byteChecks e p = none ↔ p < readLimit e w := by
  rw [byteChecks_eq_none]
  simp only [readLimit, hc, Bool.false_eq_true, if_false]
  split <;> omega

/-- A number that has the next bits of the stream is the field they are (spec R83). -/
theorem take_of_testBit {n x : Nat} (hw : w.bitOff < 8) (hn : bitPos w + n ≤ 8 * readLimit e w) (hx : x < 2 ^ n)
    (hbits : ∀ i, i < n →
      x.testBit i = (m.read (offsetOf ((bitPos w + i) / 8) e.inMask)).toNat.testBit ((bitPos w + i) % 8)) :
    take m e n w = .ok (x, advance w n) := by
  obtain ⟨v, htake, hv, hvbits⟩ := takeClosedForm m e n w hw hn
  suffices v = x by rw [htake, this]
  refine Nat.eq_of_testBit_eq fun i => ?_
  by_cases hi : i < n
  · rw [hvbits i hi, hbits i hi]
  · have hpow : 2 ^ n ≤ 2 ^ i := Nat.pow_le_pow_right (by omega) (by omega)
    rw [Nat.testBit_lt_two_pow (hv.trans_le hpow), Nat.testBit_lt_two_pow (hx.trans_le hpow)]

/-- The bits of a field cut out of a number. -/
theorem testBit_field {x off n i : Nat} (hi : i < n) : (x / 2 ^ off % 2 ^ n).testBit i = x.testBit (off + i) := by
  rw [Nat.testBit_mod_two_pow, decide_eq_true hi, Bool.true_and, Nat.testBit_div_two_pow, Nat.add_comm]

/-- A field that ends in the byte it begins in. -/
theorem take_in_byte {n : Nat} (hn : 0 < n) (hoff : w.bitOff + n ≤ 8) (hin : w.inByte < readLimit e w) :
    take m e n w = .ok ((m.read (offsetOf w.inByte e.inMask)).toNat / 2 ^ w.bitOff % 2 ^ n, advance w n) := by
  refine take_of_testBit (by omega) (by unfold bitPos; omega) (Nat.mod_lt _ (Nat.two_pow_pos n)) fun i hi => ?_
  rw [testBit_field hi, bitPos, show (8 * w.inByte + w.bitOff + i) / 8 = w.inByte by omega,
    show (8 * w.inByte + w.bitOff + i) % 8 = w.bitOff + i by omega]

/-- A field that ends in the byte after the one it begins in. -/
theorem take_in_two_bytes {n : Nat} (hw : w.bitOff < 8) (hoff : w.bitOff + n ≤ 16) (hin : w.inByte + 1 < readLimit e w) :
    take m e n w = .ok (((m.read (offsetOf w.inByte e.inMask)).toNat +
      256 * (m.read (offsetOf (w.inByte + 1) e.inMask)).toNat) / 2 ^ w.bitOff % 2 ^ n, advance w n) := by
  refine take_of_testBit hw (by unfold bitPos; omega) (Nat.mod_lt _ (Nat.two_pow_pos n)) fun i hi => ?_
  rw [testBit_field hi, Nat.add_comm (BitVec.toNat _), show 256 = 2 ^ 8 from rfl,
    Nat.testBit_two_pow_mul_add _ (BitVec.isLt _), bitPos]
  split
  case isTrue h =>
    rw [show (8 * w.inByte + w.bitOff + i) / 8 = w.inByte by omega,
      show (8 * w.inByte + w.bitOff + i) % 8 = w.bitOff + i by omega]
  case isFalse h =>
    rw [show (8 * w.inByte + w.bitOff + i) / 8 = w.inByte + 1 by omega,
      show (8 * w.inByte + w.bitOff + i) % 8 = w.bitOff + i - 8 by omega]

/-- A field that needs the byte after the one it begins in fails as that byte does. -/
theorem take_of_second_byte_missing {n : Nat} {st : Status} (hc : e.chunked = false) (hw : w.bitOff < 8)
    (hoff : 8 < w.bitOff + n) (hfirst : byteChecks e w.inByte = none) (hsecond : byteChecks e (w.inByte + 1) = some st) :
    take m e n w = .error st := by
  have hin := (byteChecks_eq_none_iff_lt_readLimit hc w).1 hfirst
  have hout : ¬ w.inByte + 1 < readLimit e w := by simp [← byteChecks_eq_none_iff_lt_readLimit hc w, hsecond]
  have hbits : takeBits n (bitsAhead m e w) = none := by
    rw [takeBits_eq_none, bitsAhead_length, bitPos]; omega
  refine take_of_takeBits_none hw hbits (fetchByte_behind_bitsAhead hw (by simp [hc]) ?_)
  rwa [show max w.inByte (readLimit e w) = w.inByte + 1 by omega]

/-! ### ExtendedRun and ReadDistance -/

/-- ExtendedRun fails with its field. -/
theorem runParse_extendedRun_of_error {st : Status} (h : take m e 4 w = .error st) :
    runParse m e (extendedRun fun x => .done (extendedLength x)) w = .error st := by
  simp [extendedRun, runParse, Config.extBits, h]

/-- ExtendedRun is 17 plus its field. -/
theorem runParse_extendedRun_of_ok {v : Nat} {w' : Work} (h : take m e 4 w = .ok (v, w')) :
    runParse m e (extendedRun fun x => .done (extendedLength x)) w = .ok (17 + v, w') := by
  simpa [extendedRun, runParse, Config.extBits, h, extendedLength, Config.sentinel] using take_lt h

end

/-- Settles O10, by whether the four bits end in the byte of the cursor. -/
theorem extendedRunAlone : Obligations.ExtendedRunAlone := by
  intro m e w hc hw hfirst
  refine ⟨fun hoff => ?_, fun hoff st hsecond => ?_, fun hoff hsecond => ?_, ?_⟩
  · exact runParse_extendedRun_of_ok
      (take_in_byte (by omega) (by omega) ((byteChecks_eq_none_iff_lt_readLimit hc w).1 hfirst))
  · exact runParse_extendedRun_of_error (take_of_second_byte_missing hc hw (by omega) hfirst hsecond)
  · exact runParse_extendedRun_of_ok
      (take_in_two_bytes hw (by omega) ((byteChecks_eq_none_iff_lt_readLimit hc w).1 hsecond))
  · simp only [advance, bitPos]
    omega

section
variable {dn f : Nat}

/-- The distance of fields within their widths (spec R94). -/
theorem distanceOf_ofNat (hdn : dn < 2 ^ 5) (hf : f < 2 ^ dn) :
    distanceOf (BitVec.ofNat 5 dn) (BitVec.ofNat 31 f) = 2 ^ dn + f := by
  have hpow : 2 ^ dn ≤ 2 ^ 31 := Nat.pow_le_pow_right (by omega) (by omega)
  rw [distanceOf, BitVec.toNat_ofNat, BitVec.toNat_ofNat, Nat.mod_eq_of_lt hdn, Nat.mod_eq_of_lt (hf.trans_le hpow)]

/-- A distance is less than 2^32 (spec R94). -/
theorem distance_le (hdn : dn < 2 ^ 5) (hf : f < 2 ^ dn) : 2 ^ dn + f ≤ 2 ^ 32 - 1 := by
  have hpow : 2 ^ dn ≤ 2 ^ 31 := Nat.pow_le_pow_right (by omega) (by omega)
  omega

end

/-- Settles O11, field by field: the second is absent where the first is 0. -/
theorem readDistanceValue : Obligations.ReadDistanceValue := by
  intro m e w
  refine ⟨fun st h => ?_, fun w1 h => ?_, fun dn w1 st hpos h hf => ?_, fun dn w1 f w2 hpos h hf => ?_⟩
  · rw [readDistance, runParse, h]
  · rw [readDistance, runParse, h]
    rfl
  · rw [readDistance, runParse, h]
    simp only [Parse.takeOpt, hpos.ne', if_false, runParse, hf]
  · have hdn := take_lt h
    have hfrac := take_lt hf
    refine ⟨?_, Nat.le_add_right_of_le Nat.one_le_two_pow, distance_le hdn hfrac⟩
    rw [readDistance, runParse, h]
    simp only [Parse.takeOpt, hpos.ne', if_false, runParse, hf, distanceOf_ofNat hdn hfrac]

end Sys2Proof.Machine

/-! A step that runs a symbol (O15), and its progress (O50): a symbol takes at least ten bits of the stream, a match for its
fields alone and a literal run with its first byte. -/

namespace Sys2Proof.Machine

/-! ### The symbol at the cursor -/

section
variable {m : Memory} {e : Env} {f : Format} {w : Work} {i : Instr} {rest : List Bool}

/-- What the bits ahead decode to is what the reader answers, and the cursor then stands behind the bits used (spec R90). -/
theorem runParse_symbol_of_decode (hw : w.bitOff < 8) (h : decodeBits f .symbol (bitsAhead m e w) = .ok (i, rest)) :
    runParse m e (symbolParse f) w = .ok (i, advance w ((bitsAhead m e w).length - rest.length)) := by
  obtain ⟨used, hused, hrun⟩ := (fields_symbolParse f).runParse_eq_ok (m := m) (e := e) h
  rw [hrun _ _ (nextBits_of_bitsAhead hw hused), hused, List.length_append, Nat.add_sub_cancel]

/-- On a boundary no bit can be read without a crossing (spec R82). -/
theorem bitsAhead_of_onBoundary (h : onBoundary e w = true) : bitsAhead m e w = [] := by
  simp only [onBoundary, Bool.and_eq_true, beq_iff_eq] at h
  obtain ⟨hc, hat⟩ := h
  refine List.eq_nil_of_length_eq_zero ?_
  rw [bitsAhead_length, bitPos]
  simp only [readLimit, hc, if_true]
  split <;> omega

/-- Where a symbol decodes from the bits ahead, the cursor is off the boundary. -/
theorem not_onBoundary_of_decode (h : decodeBits f .symbol (bitsAhead m e w) = .ok (i, rest)) :
    onBoundary e w = false := by
  cases hb : onBoundary e w with
  | false => rfl
  | true =>
    rw [bitsAhead_of_onBoundary hb] at h
    contradiction

end

/-- Settles O15: the reader on the bits ahead is the decoder, at the top of a turn and behind CONT. -/
theorem stepRunsSymbol : Obligations.StepRunsSymbol := by
  intro s i rest
  refine ⟨fun ha hl h => ?_, fun ha hw h => ?_⟩
  · have hp := runParse_symbol_of_decode (w := copyWork s) s.inBitoff.isLt h
    exact step_of_run ((fetch_of_off_boundary ha hl (not_onBoundary_of_decode h)).trans
      (fetchSymbol_of_ok (s := beginSymbol s) hp))
  · exact step_of_run ((fetch_symbol ha).trans (fetchSymbol_of_ok (runParse_symbol_of_decode hw h)))

/-! ### How far a read moves the cursor -/

section
variable {m : Memory} {e : Env} {w w' : Work}

theorem bitPos_advanceBit (w : Work) : bitPos (advanceBit w) = bitPos w + 1 := by
  unfold advanceBit bitPos; split <;> simp only <;> omega

theorem bitPos_le_alignWork (hw : w.bitOff < 8) : bitPos w ≤ bitPos (alignWork w) := by
  rw [alignWork_eq hw, bitPos_advance]
  exact Nat.le_add_right _ _

theorem bitPos_le_of_fetchByte {b : Byte} (h : fetchByte m e w = .ok (b, w')) : bitPos w ≤ bitPos w' := by
  have hbyte := inByte_le_of_fetchByte h
  rw [bitPos, bitPos, fetchByte_bitOff h]
  omega

/-- A field moves the cursor by its bits, and by what it crosses (spec R83, R111). -/
theorem bitPos_le_of_take {n v : Nat} (h : take m e n w = .ok (v, w')) : bitPos w + n ≤ bitPos w' := by
  induction n generalizing w v with
  | zero =>
    simp only [take, Except.ok.injEq, Prod.mk.injEq] at h
    rw [h.2, Nat.add_zero]
  | succ n ih =>
    obtain ⟨b, w1, v', hb, ht, -⟩ := take_succ_eq_ok h
    obtain ⟨c, w2, hf, -, rfl⟩ := takeBit_eq_ok hb
    have hfetch := bitPos_le_of_fetchByte hf
    have hrest := ih ht
    rw [bitPos_advanceBit] at hrest
    omega

/-- A run of bytes moves the cursor by its bits, and by what it crosses (spec R96, R111). -/
theorem bitPos_le_of_takeBytes {n : Nat} {bs : List Byte} (h : takeBytes m e n w = .ok (bs, w')) :
    bitPos w + 8 * n ≤ bitPos w' := by
  induction n generalizing w bs with
  | zero =>
    simp only [takeBytes, Except.ok.injEq, Prod.mk.injEq] at h
    rw [h.2]
    omega
  | succ n ih =>
    obtain ⟨b, w1, bs', hb, ht, -⟩ := takeBytes_succ_eq_ok h
    obtain ⟨w2, hf, rfl⟩ := takeByte_eq_ok hb
    have hfetch := bitPos_le_of_fetchByte hf
    have hrest := ih ht
    simp only [bitPos] at hfetch hrest ⊢
    omega

end

/-! ### The bits of a symbol's fields -/

/-- A description of bit fields that answers `a` has read at least `lo a` bits, `read` of them so far. -/
inductive ReadsAtLeast {α : Type} (lo : α → Nat) : Nat → Parse α → Prop where
  | done {read : Nat} {a : α} (h : lo a ≤ read) : ReadsAtLeast lo read (.done a)
  | take {read n : Nat} {k : Nat → Parse α} (h : ∀ v, ReadsAtLeast lo (read + n) (k v)) : ReadsAtLeast lo read (.take n k)

section
variable {α : Type} {lo : α → Nat} {read : Nat}

theorem ReadsAtLeast.takeOpt {n : Nat} {k : Nat → Parse α} (h : ∀ v, ReadsAtLeast lo (read + n) (k v)) :
    ReadsAtLeast lo read (Parse.takeOpt n k) := by
  unfold Parse.takeOpt; split
  case isTrue h0 => subst h0; exact h 0
  case isFalse => exact .take h

theorem ReadsAtLeast.readDistance {k : BitVec 5 → BitVec 31 → Parse α}
    (h : ∀ dn a b, ReadsAtLeast lo (read + 5 + dn) (k a b)) : ReadsAtLeast lo read (Sys2Proof.readDistance k) :=
  .take fun dn => .takeOpt fun _ => h dn _ _

/-- The reader moves the cursor by at least the bits that the answer asks for. -/
theorem ReadsAtLeast.bitPos_le {m : Memory} {e : Env} {p : Parse α} (hp : ReadsAtLeast lo read p) {a : α} {w w' : Work}
    (h : runParse m e p w = .ok (a, w')) : bitPos w + lo a ≤ bitPos w' + read := by
  induction hp generalizing w with
  | done ha =>
    simp only [runParse, Except.ok.injEq, Prod.mk.injEq] at h
    obtain ⟨rfl, rfl⟩ := h
    omega
  | @take read n k _ ih =>
    rw [runParse] at h
    cases ht : Machine.take m e n w with
    | error st => simp [ht] at h
    | ok q =>
      have hfield := bitPos_le_of_take ht
      have hrest := ih q.1 (by simpa [ht] using h)
      omega

end

/-- The fewest bits of a symbol's fields (spec R60): those before DFRAC of a match, and the selector and the index of a literal
run. -/
def leastFieldBits (i : Instr) : Nat :=
  match i.view with
  | .literal .. => 7
  | _ => 10

theorem leastFieldBits_le (i : Instr) : leastFieldBits i ≤ 10 := by unfold leastFieldBits; split <;> decide

theorem leastFieldBits_literalInstr (idx : Nat) (x : BitVec 32) : leastFieldBits (literalInstr idx x) = 7 := by
  unfold literalInstr; split <;> rfl

/-- A match has at least ten bits of fields. -/
theorem leastFieldBits_of_matchOperands {f : Format} {i : Instr} {n d : Nat} (h : matchOperands f i = some (n, d)) :
    leastFieldBits i = 10 := by
  unfold matchOperands at h
  unfold leastFieldBits
  cases hv : i.view <;> simp [hv] at h ⊢

/-- Every symbol has at least seven. -/
theorem seven_le_leastFieldBits (i : Instr) : 7 ≤ leastFieldBits i := by unfold leastFieldBits; split <;> decide

/-- The fields of a symbol are read in full (spec R52, R60). -/
theorem readsAtLeast_symbolParse (f : Format) : ReadsAtLeast leastFieldBits 0 (symbolParse f) := by
  refine .take fun sel => ?_
  split
  · refine .take fun idx => ?_
    split
    · exact .take fun x => .readDistance fun dn a b => .done ((leastFieldBits_le _).trans (by omega))
    · exact .takeOpt fun x => .readDistance fun dn a b => .done ((leastFieldBits_le _).trans (by omega))
  · refine .take fun idx => .takeOpt fun x => ?_
    split
    · exact .done (by rw [leastFieldBits_literalInstr]; omega)
    · exact .readDistance fun dn a b => .done ((leastFieldBits_le _).trans (by omega))

/-! ### The bits of a committed symbol -/

section
variable {s : State} {w0 w1 w : Work} {i : Instr} {p : List (Nat × Byte)} {n : Nat}

/-- Behind its fields a symbol that commits has moved the cursor by ten bits, or does so with its bytes (spec R103). -/
theorem Commits.bitPos_le (h : Commits s i w1 p w n) (hrom : s.format.romWf = true) (hw : w1.bitOff < 8) :
    bitPos w1 + 10 ≤ bitPos w + leastFieldBits i := by
  have hlen := h.one_le hrom
  cases h with
  | copies ho _ => rw [leastFieldBits_of_matchOperands ho]
  | stores _ _ hb =>
    have hfields := seven_le_leastFieldBits i
    have halign := bitPos_le_alignWork hw
    have hbytes := bitPos_le_of_takeBytes hb
    omega

/-- A symbol's fields are read from the cursor registers on, or from behind a field (spec R110, R111). -/
theorem ReadsFrom.bitPos_le (h : ReadsFrom s w0) (hinv : Inv s) : bitPos (copyWork s) ≤ bitPos w0 := by
  cases h with
  | turn => exact le_rfl
  | crossed ha =>
    have hcross := hinv.crossed ha
    have hpos := ((hinv.session_of_decoding (.inr ha)).chunk hcross.chunked).lenBytes_pos
    have hbyte := hcross.inByte
    have hat := congrArg BitVec.toNat hcross.atBoundary
    have hbit := s.inBitoff.isLt
    simp only [bitPos, copyWork]
    omega

/-- The cursor of a session's symbol stays inside the frame (spec R12). -/
theorem WorkInv.bitPos_le (h : WorkInv s w) : bitPos w ≤ 8 * s.totalLen.toNat := by
  obtain ⟨hbit, hle, hlt, -⟩ := h.1
  rw [decodeEnv_total] at hle hlt
  unfold bitPos
  omega

/-- The cursor registers after a commit hold the cursor of the working copy (spec R89). -/
theorem WorkInv.bitPos_commitSymbol (h : WorkInv s w) (p : List (Nat × Byte)) (n : Nat) :
    bitPos (copyWork (commitSymbol p w n s)) = bitPos w := by
  obtain ⟨hbit, hle, -⟩ := h.1
  have hbyte : (BitVec.ofNat 64 w.inByte).toNat = w.inByte := toNat_ofNat_of_le hle
  rw [bitPos, bitPos, copyWork, commitSymbol_inByte, commitSymbol_inBitoff, hbyte, BitVec.toNat_ofNat,
    Nat.mod_eq_of_lt (by omega)]

/-- What a committed symbol adds to the two cursors (spec R103). -/
theorem Commits.progress (hc : Commits s i w1 p w n) (hinv : Inv s) (hw : ReadsFrom s w0)
    (hr : runParse s.inMem (decodeEnv s) (symbolParse s.format) w0 = .ok (i, w1)) :
    1 ≤ n ∧ bitPos (copyWork s) + 10 ≤ bitPos w ∧ WorkInv s w := by
  have hsession := hinv.session_of_decoding hw.inSymbol.activity
  have hw1 : WorkInv s w1 := hsession.workInv_cursorInv.runParse (bitsOnly_symbolParse _) (hw.workInv hinv) hr
  have hstart := hw.bitPos_le hinv
  have hfields := (readsAtLeast_symbolParse _).bitPos_le hr
  have hbits := hc.bitPos_le hinv.roms hw1.1.bitOff
  exact ⟨hc.one_le hinv.roms, by omega, hc.workInv hsession hw1⟩

end

/-- Settles O50: of the outcomes of a step only a committed symbol returns to the top of a turn. -/
theorem symbolProgress : Obligations.SymbolProgress := by
  intro s t hinv hs h ht
  cases stepCase_of_step h with
  | ignored ha | initTruncated ha | initBegun ha | decodeRejected ha | decodeEntered ha => simp [ha] at hs
  | headerFailed ha | opened ha => simp [ha] at hs
  | loopStopped | crossed | symbolFailed => contradiction
  | @committed w0 w1 w i s' p n hw hf hr hc =>
    obtain ⟨hlen, hbits, hwork⟩ := hc.progress hinv hw hr
    have hcursor : 8 * (commitSymbol p w n s).inByte.toNat + (commitSymbol p w n s).inBitoff.toNat = bitPos w :=
      hwork.bitPos_commitSymbol p n
    rw [hc.outCur, hcursor]
    exact ⟨by omega, hc.size, hbits, hwork.bitPos_le⟩

end Sys2Proof.Machine

/-! The worked codes (O3) and the decode state machine (O36). -/

namespace Sys2Proof

/-- Bytes that begin with the code of a well-formed instruction decode to it. -/
theorem decodeBytes_of_encode {f : Format} {i : Instr} {bytes : List Byte} {rest : List Bool} (hw : i.wf f = true)
    (hb : bytesBits bytes = encode f i ++ rest) : decodeBytes f i.slot bytes = .ok (i, rest) := by
  rw [decodeBytes, hb]
  exact decodeOfEncode f i rest hw

/-- Settles O3: each worked code is the encoding of its instruction, with the bits left over. -/
theorem decodeExamples : Obligations.DecodeExamples :=
  ⟨decodeBytes_of_encode (i := .smatch8 1 2 1) (by decide) (by decide),
    decodeBytes_of_encode (i := .smatchx 15 3 3 0) (by decide) (by decide),
    decodeBytes_of_encode (i := .litrun2 0) (by decide) (by decide),
    decodeBytes_of_encode (i := .lmatch36 7 8 44) (by decide) (by decide),
    decodeBytes_of_encode (i := .hdr 5 0 12 12 (some ⟨0, 16⟩)) (by decide) (by decide),
    decodeBytes_of_encode (i := .cont 10) (by decide) (by decide),
    decodeOfEncode _ .init [] rfl, decodeOfEncode _ .decode [] rfl⟩

end Sys2Proof

namespace Sys2Proof.Machine

/-- Settles O36, event by event: a status leads back from every state, another event from its own rows' states only. -/
theorem stateMachineRows : Obligations.StateMachineRows := by
  intro a b ev
  cases ev with
  | statusRaised => simp [fsmNext, eq_comm]
  | shortClass | shortSentinel | extBitsRead | longLiteral | longMatch | copyComplete =>
    cases a <;> simp [fsmNext, eq_comm]

end Sys2Proof.Machine

/-! The liveness of a host that keeps the rings (O54). Where its grant covers the windows, the checks that run out of input or
room come after one that fails with `CorruptStream`; so the first turn of its DECODE commits a symbol, or ends with `Done` or
`CorruptStream`, and the later turns keep what it committed. -/

namespace Sys2Proof.Machine

/-! ### Input that reaches as far as the window -/

section
variable {m : Memory} {e : Env} {w : Work} {st : Status}

/-- The available input reaches the end of the frame or of the window (spec R16, R114). -/
def InputCovered (e : Env) : Prop := e.total ≤ e.avail ∨ (e.inMask ≠ all1 ∧ e.base + e.inMask + 1 ≤ e.avail)

/-- A field behind such an input is behind the window or the frame first: checks (a) and (b) come before (c) (spec R110). -/
theorem InputCovered.contChecks_ne (h : InputCovered e) : contChecks e w ≠ some .needMoreInput := by
  unfold InputCovered at h
  unfold contChecks
  split_ifs <;> simp
  omega

/-- So is a byte (spec R82); only the status of the frame's end is the environment's own. -/
theorem InputCovered.byteChecks_ne (h : InputCovered e) (ht : e.totalStatus ≠ .needMoreInput) {p : Nat} :
    byteChecks e p ≠ some .needMoreInput := by
  unfold InputCovered at h
  unfold byteChecks
  split_ifs <;> simp [ht]
  omega

/-- No fetch runs out of such an input. -/
theorem InputCovered.fetchByte_ne (h : InputCovered e) (ht : e.totalStatus ≠ .needMoreInput) :
    fetchByte m e w ≠ .error .needMoreInput := by
  have hcross : crossIfNeeded m e w ≠ .error .needMoreInput := by
    unfold crossIfNeeded
    split
    case isFalse => nofun
    case isTrue =>
      cases hk : contChecks e w with
      | some st =>
        rw [crossBoundary_of_contChecks_some hk]
        rintro ⟨⟩
        exact h.contChecks_ne hk
      | none =>
        rw [crossBoundary_of_contChecks_none hk]
        exact fun hv => nomatch contApply_eq_error hv
  unfold fetchByte
  cases hc : crossIfNeeded m e w with
  | error st =>
    rintro ⟨⟩
    exact hcross hc
  | ok w' =>
    cases hk : byteChecks e w'.inByte with
    | some st =>
      simp only [hk]
      rintro ⟨⟩
      exact h.byteChecks_ne ht hk
    | none => simp only [hk]; nofun

/-- A field fails as one of its fetches does. -/
theorem fetchByte_error_of_take {n : Nat} (h : take m e n w = .error st) : ∃ w', fetchByte m e w' = .error st := by
  induction n generalizing w with
  | zero => contradiction
  | succ n ih =>
    rw [take, takeBit] at h
    cases hf : fetchByte m e w with
    | error st' => rw [hf] at h; cases h; exact ⟨w, hf⟩
    | ok q =>
      cases ht : take m e n (advanceBit q.2) with
      | error st' => simp only [hf, ht] at h; cases h; exact ih ht
      | ok q' => simp [hf, ht] at h

/-- So does a whole byte. -/
theorem fetchByte_error_of_takeByte (h : takeByte m e w = .error st) : fetchByte m e w = .error st := by
  rw [takeByte] at h
  cases hf : fetchByte m e w with
  | error st' => rw [hf] at h; cases h; rfl
  | ok q => rw [hf] at h; contradiction

/-- So does a run of bytes. -/
theorem fetchByte_error_of_takeBytes {n : Nat} (h : takeBytes m e n w = .error st) :
    ∃ w', fetchByte m e w' = .error st := by
  induction n generalizing w with
  | zero => contradiction
  | succ n ih =>
    rw [takeBytes] at h
    cases hb : takeByte m e w with
    | error st' => rw [hb] at h; cases h; exact ⟨w, fetchByte_error_of_takeByte hb⟩
    | ok q =>
      cases ht : takeBytes m e n q.2 with
      | error st' => simp only [hb, ht] at h; cases h; exact ih ht
      | ok q' => simp [hb, ht] at h

/-- So does a description. -/
theorem fetchByte_error_of_runParse {α : Type} {p : Parse α} (h : runParse m e p w = .error st) :
    ∃ w', fetchByte m e w' = .error st := by
  induction p generalizing w with
  | done a => contradiction
  | take n k ih =>
    rw [runParse] at h
    cases ht : take m e n w with
    | error st' => rw [ht] at h; cases h; exact fetchByte_error_of_take ht
    | ok q => rw [ht] at h; exact ih _ h
  | align k ih => exact ih h
  | byte k ih =>
    rw [runParse] at h
    cases hb : takeByte m e w with
    | error st' => rw [hb] at h; cases h; exact ⟨w, fetchByte_error_of_takeByte hb⟩
    | ok q => rw [hb] at h; exact ih _ h

end

/-! ### A DECODE whose latches cover the windows -/

/-- The latches of a DECODE reach the ends of the windows, or of the frame and of the declared size (spec R114). -/
structure RingsCovered (s : State) : Prop where
  input : InputCovered (decodeEnv s)
  output : s.decompSize.toNat ≤ s.availOut.toNat ∨
    (s.outMask.toNat ≠ all1 ∧ s.outCur.toNat + s.outMask.toNat + 1 ≤ s.availOut.toNat)

section
variable {s : State} {o : SymbolOutcome} {st : Status} {n d : Nat}

/-- A read of such a DECODE fails with `CorruptStream` only. -/
theorem RingsCovered.corruptStream_of_fetchByte (h : RingsCovered s) {m : Memory}
    (hf : ∃ w, fetchByte m (decodeEnv s) w = .error st) : st = .corruptStream := by
  obtain ⟨w, hf⟩ := hf
  rcases fetchByte_status hf with rfl | rfl | rfl
  · rfl
  · rfl
  · exact absurd hf (h.input.fetchByte_ne (by simp))

/-- Its check 5 raises only behind checks 1 and 2 (spec R98). -/
theorem RingsCovered.checkRoom_eq_none (h : RingsCovered s) (hlen : checkLength s n = none) : checkRoom s n = none := by
  obtain ⟨hsize, hwin⟩ := checkLength_eq_none.1 hlen
  rw [Machine.checkRoom_eq_none]
  rcases h.output with hout | ⟨hmask, hout⟩
  · omega
  · have := hwin hmask
    omega

/-- So its checks raise `CorruptStream` only. -/
theorem RingsCovered.corruptStream_of_literalChecks (h : RingsCovered s) (hk : literalChecks s n = some st) :
    st = .corruptStream := by
  unfold literalChecks firstOf at hk
  cases hlen : checkLength s n with
  | some st' => rw [hlen] at hk; cases hk; exact checkLength_status_eq hlen
  | none => simp [hlen, h.checkRoom_eq_none hlen] at hk

theorem RingsCovered.corruptStream_of_matchChecks (h : RingsCovered s) (hk : matchChecks s n d = some st) :
    st = .corruptStream := by
  cases hlen : checkLength s n with
  | some st' =>
    simp only [matchChecks, firstOf, hlen] at hk
    cases hk
    exact checkLength_status_eq hlen
  | none =>
    simp only [matchChecks, hlen, h.checkRoom_eq_none hlen] at hk
    unfold firstOf checkDistance at hk
    split_ifs at hk <;> simpa using hk.symm

/-- Its symbol step fails with `CorruptStream` only (spec R114). -/
theorem SymbolResult.corruptStream (hr : SymbolResult s o) (h : RingsCovered s) (ho : o = .error st) :
    st = .corruptStream := by
  cases hr with
  | unread hr => cases ho; exact h.corruptStream_of_fetchByte (fetchByte_error_of_runParse hr)
  | @matched i w n d hr _ =>
    unfold matchOutcome at ho
    cases hk : matchChecks s n d with
    | some st' => rw [hk] at ho; cases ho; exact h.corruptStream_of_matchChecks hk
    | none => rw [hk] at ho; contradiction
  | @literal i w n hr _ =>
    unfold literalOutcome at ho
    cases hk : literalChecks s n with
    | some st' => rw [hk] at ho; cases ho; exact h.corruptStream_of_literalChecks hk
    | none =>
      cases hb : takeBytes s.inMem (decodeEnv s) n (alignWork w) with
      | error st' =>
        simp only [hk, hb] at ho
        cases ho
        exact h.corruptStream_of_fetchByte (fetchByte_error_of_takeBytes hb)
      | ok q => simp [hk, hb] at ho

/-- The end of the lap that holds `OUT_CUR` lies within the window behind it (spec R18, R113). -/
theorem reqOut_le_window (hs : SessionInv s) (hmask : s.outMask.toNat ≠ all1) :
    reqOut s ≤ s.outCur.toNat + s.outMask.toNat + 1 := by
  obtain ⟨k, -, hk⟩ := hs.outMask.resolve_left hmask
  have hpos := Nat.two_pow_pos k
  have hdiv := Nat.div_mul_le_self s.outCur.toNat (2 ^ k)
  rw [reqOut, hs.invMaskOut, if_neg hmask, hk, or_mask_add_one, Nat.add_mul]
  omega

theorem reqOut_le_decompSize (s : State) : reqOut s ≤ s.decompSize.toNat := by
  unfold reqOut
  split
  · exact le_rfl
  · exact Nat.min_le_right _ _

/-- The chunk that the gate waits for ends within the window behind the cursor (spec R110, R112). -/
theorem reqIn_le_window (hs : SessionInv s) (hmask : s.inMask.toNat ≠ all1) :
    s.reqIn.toNat ≤ s.inByte.toNat + s.inMask.toNat + 1 := by
  cases hc : s.chunked with
  | false => exact absurd (hs.linear hc).mask hmask
  | true => exact (hs.chunk hc).reqIn_le.trans (hs.chunk hc).near

/-- Both gates are open to such a DECODE: of its loop's tests only termination stops it (spec R112 to R114). -/
theorem RingsCovered.done_of_loopTest (h : RingsCovered s) (hs : SessionInv s) (hl : loopTest s = some st) :
    st = .done := by
  rcases loopTest_eq_some hl with ⟨rfl, -⟩ | ⟨rfl, hin⟩ | ⟨rfl, hout⟩
  · rfl
  · have := hs.reqIn_le
    rcases h.input with hcov | ⟨hmask, hcov⟩
    · simp only [decodeEnv_total, decodeEnv_avail] at hcov
      omega
    · simp only [decodeEnv_base, decodeEnv_inMask, decodeEnv_avail] at hcov
      have := reqIn_le_window hs hmask
      omega
  · have := reqOut_le_decompSize s
    rcases h.output with hcov | ⟨hmask, hcov⟩
    · omega
    · have := reqOut_le_window hs hmask
      omega

/-- The arguments of a host that keeps the rings cover the windows (spec R114). -/
theorem ringsCovered_enterDecode {ai ao : Word}
    (hai : ai.toNat = min (s.inByte.toNat + s.inMask.toNat + 1) s.totalLen.toNat)
    (hao : ao.toNat = min (s.outCur.toNat + s.outMask.toNat + 1) s.decompSize.toNat) :
    RingsCovered (enterDecode (taken (issueDecode ai ao s))) := by
  have htotal := s.totalLen.isLt
  have hsize := s.decompSize.isLt
  have hin : (enterDecode (taken (issueDecode ai ao s))).availIn.toNat = ai.toNat :=
    (toNat_ofNat_of_le (Nat.min_le_right _ _)).trans (Nat.min_eq_left (hai ▸ Nat.min_le_right _ _))
  have hout : (enterDecode (taken (issueDecode ai ao s))).availOut.toNat = ao.toNat :=
    (toNat_ofNat_of_le (Nat.min_le_right _ _)).trans (Nat.min_eq_left (hao ▸ Nat.min_le_right _ _))
  constructor
  · change s.totalLen.toNat ≤ _ ∨ (s.inMask.toNat ≠ all1 ∧ s.inByte.toNat + s.inMask.toNat + 1 ≤ _)
    rw [decodeEnv_avail, hin, hai]
    unfold all1
    omega
  · change s.decompSize.toNat ≤ _ ∨ (s.outMask.toNat ≠ all1 ∧ s.outCur.toNat + s.outMask.toNat + 1 ≤ _)
    rw [hout, hao]
    unfold all1
    omega

end

/-! ### What a turn commits stays committed -/

section
variable {s : State}

/-- The turns of the loop do not take output back (spec R13, R89). -/
theorem outCur_le_decodeLoop (fuel : Nat) (hinv : Inv s) (ha : s.activity = .decode) :
    s.outCur.toNat ≤ (decodeLoop fuel s).outCur.toNat := by
  induction fuel generalizing s with
  | zero => exact le_rfl
  | succ fuel ih =>
    cases hl : loopTest s with
    | some st => rw [decodeLoop_of_some hl]; exact le_rfl
    | none =>
      obtain ⟨o, ho⟩ := exists_symbolResult s
      have hstep := ho.symbolStep_eq (by simp [ha])
      obtain ⟨s1, hlast⟩ := exists_lastStep hinv ha hl
      rcases hlast.cases hinv with ⟨-, hact, -⟩ | ⟨hact, hout, -⟩
      · rw [decodeLoop_of_ends hl hact, hstep]
        cases o with
        | error st => exact le_rfl
        | ok q => rw [hstep] at hact; exact absurd rfl hact
      · rw [decodeLoop_of_goes_on hl hact]
        exact hout.le.trans (ih (hlast.inv hinv).2 hact)

/-- A loop whose latches cover the windows produces output, or ends with `Done` or `CorruptStream` (spec R114). -/
theorem RingsCovered.decodeLoop_progress (h : RingsCovered s) (fuel : Nat) (hinv : Inv s) (ha : s.activity = .decode) :
    s.outCur.toNat < (decodeLoop (fuel + 1) s).outCur.toNat ∨ (decodeLoop (fuel + 1) s).status = .done ∨
      (decodeLoop (fuel + 1) s).status = .corruptStream := by
  cases hl : loopTest s with
  | some st =>
    rw [decodeLoop_of_some hl, h.done_of_loopTest (hinv.session_of_decoding (.inl ha)) hl]
    exact .inr (.inl rfl)
  | none =>
    obtain ⟨o, ho⟩ := exists_symbolResult s
    have hstep := ho.symbolStep_eq (by simp [ha])
    obtain ⟨s1, hlast⟩ := exists_lastStep hinv ha hl
    rcases hlast.cases hinv with ⟨-, hact, -⟩ | ⟨hact, hout, -⟩
    · rw [decodeLoop_of_ends hl hact, hstep]
      cases o with
      | error st => exact .inr (.inr (ho.corruptStream h rfl))
      | ok q => rw [hstep] at hact; exact absurd rfl hact
    · rw [decodeLoop_of_goes_on hl hact]
      exact .inl (hout.trans_le (outCur_le_decodeLoop fuel (hlast.inv hinv).2 hact))

end

/-- Settles O54: the DECODE enters its loop with latches that cover the windows. -/
theorem ringHostProgress : Obligations.RingHostProgress := by
  intro s t ai ao hinv hb hp hai hao ht
  obtain ⟨ha, -⟩ := busy_eq_false.1 hb
  have hissued : Inv (issueDecode ai ao s) := hinv.of_host hb hinv.inMem ⟨_, _, _, _, _, _, _, rfl⟩
  have hentered := hissued.enterDecode ha hp
  have hloop := stepsAreDecodeLoop _ _ hentered rfl le_rfl
  obtain rfl := ht.unique (.of_step (step_issueDecode ha hp) hloop)
  exact (ringsCovered_enterDecode hai hao).decodeLoop_progress _ hentered rfl

end Sys2Proof.Machine

/-! The continuation field (O12, O17, O28): its value as a sum over its bytes, as the bits that the decoder reads, and CONT. -/

namespace Sys2Proof

/-- A little-endian number of `n` bytes has `8 * n` bits (spec R33). -/
theorem leNat_lt (bs : List Byte) : leNat bs < 2 ^ (8 * bs.length) := by
  induction bs with
  | nil => simp [leNat]
  | cons b bs ih =>
    have := b.isLt
    rw [leNat, List.length_cons, Nat.mul_succ, Nat.pow_add]
    omega

/-- A field holds the low bits of its number. -/
theorem natBits_mod (n v : Nat) : natBits n (v % 2 ^ n) = natBits n v := by
  simpa using (takeBits_eq_some (takeBits_natBits n v [])).2.symm

/-- A number in two parts is written part by part. -/
theorem natBits_add_mul {n b : Nat} (h : b < 2 ^ n) (k v : Nat) :
    natBits (n + k) (b + 2 ^ n * v) = natBits n b ++ natBits k v := by
  rw [natBits_add, Nat.add_mul_div_left _ _ (Nat.two_pow_pos n), Nat.div_eq_of_lt h, Nat.zero_add,
    ← natBits_mod n (b + 2 ^ n * v), Nat.add_mul_mod_self_left, Nat.mod_eq_of_lt h]

/-- A little-endian number is the sum of its bytes, each at its place (spec R33). -/
theorem leNat_map_range (f : Nat → Byte) (n : Nat) :
    leNat ((List.range n).map f) = ∑ i ∈ Finset.range n, (f i).toNat * 2 ^ (8 * i) := by
  induction n generalizing f with
  | zero => rfl
  | succ n ih =>
    rw [List.range_succ_eq_map, List.map_cons, List.map_map, leNat, ih, Finset.sum_range_succ', Finset.mul_sum,
      Nat.add_comm]
    congr 1
    · refine Finset.sum_congr rfl fun i _ => ?_
      rw [Function.comp_apply, Nat.mul_succ, Nat.pow_add]
      ring
    · simp

end Sys2Proof

namespace Sys2Proof.Machine

/-! ### CrossBoundary -/

@[simp] theorem contBytes_length (m : Memory) (e : Env) (w : Work) : (contBytes m e w).length = e.lenBytes := by
  simp [contBytes]

/-- V of a field of at most 8 bytes is their little-endian number (spec R110). -/
theorem contValue_decodeCont {bs : List Byte} (h : bs.length ≤ 8) : contValue (decodeCont bs) = leNat bs := by
  have hlt := leNat_lt bs
  have hle : 2 ^ (8 * bs.length) ≤ 2 ^ 64 := Nat.pow_le_pow_right (by omega) (by omega)
  rw [decodeCont, contValue, BitVec.toNat_ofNat, Nat.mod_eq_of_lt (by omega)]

/-- Settles O12: checks (a) to (c), then check (d) for the sum of the field's bytes. -/
theorem crossBoundaryRule : Obligations.CrossBoundaryRule := by
  intro m e w hlen first v
  have hv : contValue (decodeCont (contBytes m e w)) = v := by
    rw [contValue_decodeCont (by simpa using hlen)]
    exact leNat_map_range _ _
  cases hk : contChecks e w with
  | some st =>
    rw [crossBoundary_of_contChecks_some hk]
    unfold contChecks at hk
    split_ifs at hk ⊢ <;> cases hk <;> rfl
  | none =>
    obtain ⟨ha, hb, hc⟩ := contChecks_eq_none.1 hk
    rw [crossBoundary_of_contChecks_none hk, hv, if_neg (Nat.not_lt.2 ha), if_neg (Nat.not_lt.2 hb),
      if_neg (Nat.not_lt.2 hc)]
    rfl

/-! ### The step on a boundary -/

section
variable {m : Memory} {mask : Nat}

/-- A run of bits in two parts. -/
theorem streamBits_add (p a b : Nat) : streamBits m mask p (a + b) = streamBits m mask p a ++ streamBits m mask (p + a) b := by
  induction a generalizing p with
  | zero => simp [streamBits]
  | succ a ih => rw [Nat.add_right_comm, streamBits, ih, streamBits, List.cons_append, Nat.add_right_comm, Nat.add_assoc]

/-- The bits of one whole byte of `IN` (spec R32). -/
theorem streamBits_byte (p : Nat) : streamBits m mask (8 * p) 8 = natBits 8 (m.read (offsetOf p mask)).toNat := by
  refine List.ext_getElem? fun i => ?_
  by_cases hi : i < 8
  · rw [getElem?_streamBits hi, getElem?_natBits hi, show (8 * p + i) / 8 = p by omega, show (8 * p + i) % 8 = i by omega]
  · rw [List.getElem?_eq_none (by simpa using hi), List.getElem?_eq_none (by simpa using hi)]

/-- The bits of whole bytes of `IN` are those of their little-endian number (spec R33). -/
theorem streamBits_bytes (p n : Nat) :
    streamBits m mask (8 * p) (8 * n) = natBits (8 * n) (leNat (bytesAt m mask p n)) := by
  induction n generalizing p with
  | zero => rfl
  | succ n ih =>
    rw [Nat.mul_succ, Nat.add_comm (8 * n), streamBits_add, streamBits_byte, ← Nat.mul_succ, ih, bytesAt_succ, leNat,
      show 256 = 2 ^ 8 from rfl, natBits_add_mul (BitVec.isLt _)]

end

section
variable {s : State}

/-- The decoder reads the field at a boundary as its little-endian number (spec R57). -/
theorem decodeBits_cont (s : State) (w : Work) :
    decodeBits s.format .cont (streamBits s.inMem s.inMask.toNat (8 * w.nextBnd) (8 * s.lenBytes.toNat)) =
      .ok (decodeCont (contBytes s.inMem (decodeEnv s) w), []) := by
  have hlt := leNat_lt (contBytes s.inMem (decodeEnv s) w)
  rw [contBytes_length] at hlt
  rw [streamBits_bytes, ← List.append_nil (natBits _ _)]
  exact runBits_bytesLE _ 0 [] hlt

/-- A status that checks (a) to (c) of CONT raise fails the step (spec R110). -/
theorem step_of_contChecks_some (ha : s.activity = .decode) (hl : loopTest s = none)
    (hb : onBoundary (decodeEnv s) (copyWork s) = true) {st : Status} (h : contChecks (decodeEnv s) (copyWork s) = some st) :
    step s = .next (failedStep st s) := by
  have hf : fetchCont (beginSymbol s) = .stop (raiseStatus st (beginSymbol s)) := by
    rcases fetchCont_cases (beginSymbol s) with ⟨st', hk, hx⟩ | ⟨hk, -⟩
    · rw [hx, Option.some.inj (hk.symm.trans h)]
    · exact nomatch hk.symm.trans h
  rw [step_of_stop ((fetch_of_onBoundary ha hl hb).trans hf),
    raiseStatus_eq_failedStep (s := beginSymbol s) st (by simp [ha])]
  rfl

/-- Past them the step is CONT with the field's value (spec R110, R111). -/
theorem step_of_contChecks_none (ha : s.activity = .decode) (hl : loopTest s = none)
    (hb : onBoundary (decodeEnv s) (copyWork s) = true) (h : contChecks (decodeEnv s) (copyWork s) = none) :
    step s = exec (decodeCont (contBytes s.inMem (decodeEnv s) (copyWork s))) (beginSymbol s) := by
  rcases fetchCont_cases (beginSymbol s) with ⟨st, hk, -⟩ | ⟨-, hx⟩
  · exact nomatch hk.symm.trans h
  · exact step_of_run ((fetch_of_onBoundary ha hl hb).trans hx)

end

/-- Settles O17: the field's bits are its bytes, so that the step's instruction is the one they decode to. -/
theorem stepRunsCont : Obligations.StepRunsCont := by
  intro s ha hl hc hat
  have hb : onBoundary (decodeEnv s) (copyWork s) = true := by simp [onBoundary, copyWork, hc, hat]
  refine ⟨fun st hk => step_of_contChecks_some ha hl hb hk, fun hk i hdecode => ?_⟩
  cases (decodeBits_cont s (copyWork s)).symm.trans hdecode
  exact step_of_contChecks_none ha hl hb hk

/-! ### CONT -/

/-- When check (d) of R110 raises, and what. -/
theorem contApply_eq_error_iff {e : Env} {v : Nat} {w : Work} {st : Status} :
    contApply e v w = .error st ↔
      w.nextBnd + e.lenBytes + v > min (w.nextBnd + e.stride) e.total ∧ st = .corruptStream := by
  unfold contApply
  split_ifs with h <;> simp [h, eq_comm]

/-- Settles O28, by check (d). -/
theorem contMoves : Obligations.ContMoves := by
  intro v s
  have hexec : exec (.cont v) s = execCont v s := rfl
  refine ⟨fun h => ?_, fun hs h => ?_⟩
  · have hv : contApply (decodeEnv s) v.toNat s.work = .ok _ := contApply_eq_ok.2 ⟨h, rfl⟩
    rw [hexec, execCont, hv]
    rfl
  · have hv : contApply (decodeEnv s) v.toNat s.work = .error _ := contApply_eq_error_iff.2 ⟨h, rfl⟩
    rw [hexec, execCont, hv]
    exact congrArg _ (raiseStatus_eq_failedStep _ hs)

end Sys2Proof.Machine

/-! A step answers a next state, or is the INIT that the spec leaves unspecified (O45): outside a command boundary every
instruction that runs was read from `IN`, and the stream holds no command. -/

namespace Sys2Proof.Machine

/-! ### Where an INIT comes from -/

section
variable {s s' : State} {i : Instr}

/-- The fields of a symbol give a symbol (spec R90). -/
theorem slot_of_fetchSymbol (h : fetchSymbol s = .run i s') : i.slot = .symbol := by
  rcases fetchSymbol_cases s with ⟨st, -, hx⟩ | ⟨j, w, hp, hx⟩ <;> cases hx.symm.trans h
  exact (gives_symbolParse _).runParse hp

/-- A header gives HDR (spec R71 to R74). -/
theorem slot_of_fetchHeader (h : fetchHeader s = .run i s') : i.slot = .header := by
  rcases fetchHeader_cases s with ⟨st, -, hx⟩ | ⟨j, w, hp, hx⟩ <;> cases hx.symm.trans h
  obtain ⟨e, fr, a, b, tr, rfl, -⟩ := gives_headerParse.runParse hp
  rfl

/-- The field at a boundary gives CONT (spec R110). -/
theorem slot_of_fetchCont (h : fetchCont s = .run i s') : i.slot = .cont := by
  rcases fetchCont_cases s with ⟨st, -, hx⟩ | ⟨-, hx⟩ <;> cases hx.symm.trans h
  rfl

/-- A turn of the loop runs CONT or a symbol (spec R78, R111). -/
theorem slot_of_fetchTurn (h : fetchTurn s = .run i s') : i.slot = .cont ∨ i.slot = .symbol := by
  rcases fetchTurn_cases s with ⟨st, -, hx⟩ | ⟨-, -, hx⟩ | ⟨-, -, hx⟩ <;> rw [hx] at h
  · contradiction
  · exact .inl (slot_of_fetchCont h)
  · exact .inr (slot_of_fetchSymbol h)

/-- A command is run at a command boundary only (spec R23). -/
theorem idle_of_fetch_command (h : fetch s = .run i s') (hi : i.slot = .command) : s.activity = .idle := by
  cases ha : s.activity with
  | idle => rfl
  | init =>
    rw [fetch_init ha] at h
    exact nomatch hi.symm.trans (slot_of_fetchHeader h)
  | decode =>
    rw [fetch_decode ha] at h
    rcases slot_of_fetchTurn h with hs | hs <;> exact nomatch hi.symm.trans hs
  | symbol =>
    rw [fetch_symbol ha] at h
    exact nomatch hi.symm.trans (slot_of_fetchSymbol h)

/-- INIT is run where `CMD` 1 was issued, from the state in which it is taken up (spec R23, R58). -/
theorem issued_of_fetch_init (h : fetch s = .run .init s') : s.activity = .idle ∧ s.cmd = 1 ∧ s' = taken s := by
  have ha := idle_of_fetch_command h rfl
  cases hc : decodeCommand s.cmd with
  | none => exact nomatch (fetch_of_no_command ha hc).symm.trans h
  | some j =>
    cases (fetch_of_command ha hc).symm.trans h
    refine ⟨ha, ?_, rfl⟩
    unfold decodeCommand at hc
    split_ifs at hc with h1
    · exact h1
    · contradiction

end

/-! ### The statement -/

/-- Settles O45: a stop answers its state, a meaning refuses INIT only, and INIT is run at a command boundary only. -/
theorem stepNeverFaults : Obligations.StepNeverFaults := by
  intro s
  cases hf : fetch s with
  | stop t => exact .inl ⟨t, step_of_stop hf⟩
  | run i s' =>
    rw [step_of_run hf]
    rcases exec_next_or_refused i s' with hnext | ⟨rfl, hlong, hrefused⟩
    · exact .inl hnext
    · obtain ⟨ha, hc, rfl⟩ := issued_of_fetch_init hf
      exact .inr ⟨ha, hc, hlong, hrefused⟩

end Sys2Proof.Machine

/-! The host's reset and the DECODE after it (O59): the reset leaves an idle machine without a session, and a DECODE
issued to any such machine takes one step, which writes `STATUS`. -/

namespace Sys2Proof.Machine

section
variable {s : State}

/-- Between commands the reset is taken (spec R140 to R142). -/
theorem hostReset_of_not_busy (hs : s.busy = false) : ∃ t, hostReset s = .next t := by
  simp [hostReset, hs]

/-- DECODE issued without a session returns `NoSession`, its arguments kept (spec R77). -/
theorem commandRuns_issueDecode_of_noSession (hs : s.busy = false) (hp : s.phase = .noSession) (ai ao : Word) :
    CommandRuns (issueDecode ai ao s) { s with arg0 := ai, arg1 := ao, status := .noSession } := by
  obtain ⟨ha, hc⟩ := busy_eq_false.1 hs
  have hstep : step (issueDecode ai ao s) = .next { taken (issueDecode ai ao s) with status := .noSession } :=
    (step_of_run (fetch_idle_decode (s := issueDecode ai ao s) ha rfl)).trans (execDecode_of_not_active.1 hp)
  have hend : ({ taken (issueDecode ai ao s) with status := .noSession } : State) =
      { s with arg0 := ai, arg1 := ao, status := .noSession } := by
    simp only [taken, issueDecode, hc]
  exact .of_step (hstep.trans (congrArg _ hend)) (.of_idle hs)

end

/-- Settles O59: the reset state's fields are read off, and it is between commands and without a session. -/
theorem resetThenDecode : Obligations.ResetThenDecode := by
  intro s hs
  obtain ⟨t, ht⟩ := hostReset_of_not_busy hs
  refine ⟨t, ht, ?_⟩
  obtain rfl := hostReset_eq_next ht
  exact ⟨rfl, rfl, rfl, rfl, rfl, rfl, rfl, rfl, rfl, commandRuns_issueDecode_of_noSession rfl rfl⟩

end Sys2Proof.Machine
